-- ==== Sys2Proof/Word.lean ====
section
/-! DEFINITION. The word types of the frame codec (spec/00_scope.md R7): a byte, a u16, and the 32-bit
pattern of an i32. -/

namespace Sys2Proof

/-- A byte, 0..255 (R7). -/
abbrev Byte := BitVec 8

/-- An unsigned 16-bit field: command_code, arg_count, checksum, start and end codes (R55). -/
abbrev U16 := BitVec 16

/-- The two's complement pattern of a signed 32-bit argument (R56); its value is `BitVec.toInt`.
PRESUMED (the spec's own general-knowledge mark, log entry 8). -/
abbrev I32 := BitVec 32

/-- One flipped bit: the byte at offset `o` of `s` with its bit `j` inverted (bit 7 most significant, R7). -/
def flipBit (s : List Byte) (o j : Nat) : List Byte :=
  s.modify o (fun b => b ^^^ BitVec.twoPow 8 j)

end Sys2Proof
end

