-- ==== Sys2Proof/Config.lean ====
section
/-! DEFINITION. What is fixed for the life of an instance (spec/00_scope.md R4, R5; spec/10_state.md R19):
the protocol's constants, and the two open parameters `BUF_MAX` and `CKSUM`. -/

namespace Sys2Proof

namespace Config

/-- `START1` (R4). -/
def start1 : U16 := 0xEB90
/-- `START2` (R4). -/
def start2 : U16 := 0x5B6A
/-- `END1` (R4). -/
def end1 : U16 := 0xC5A4
/-- `END2` (R4). -/
def end2 : U16 := 0xD279
/-- `START`: the bytes of `START1` then `START2`, big-endian (R4, R33). -/
def startBytes : List Byte := [0xEB, 0x90, 0x5B, 0x6A]
/-- `END`: the bytes of `END1` then `END2`, big-endian (R4, R33). -/
def endBytes : List Byte := [0xC5, 0xA4, 0xD2, 0x79]
/-- `HDR_LEN` (R4). -/
def hdrLen : Nat := 8
/-- `ARG_LEN` (R4). -/
def argLen : Nat := 4
/-- `FTR_LEN` (R4). -/
def ftrLen : Nat := 6
/-- `MAX_ARGS` (R4). -/
def maxArgs : Nat := 65535
/-- `MIN_FRAME` (R4). -/
def minFrame : Nat := 14
/-- `MAX_FRAME` (R4). -/
def maxFrame : Nat := 262154
/-- `SCAN_KEEP` (R5, R115; spec/90_conflicts.md C2 corrects the source's literal 1 to 3). -/
def scanKeep : Nat := 3

/-- By how much `BUF_MAX` exceeds its lower bound 14: open (R5, D8; log entry 5). -/
opaque bufSlack : Nat

end Config

/-- The law `CKSUM_SINGLE_BIT` of R74: on covered regions (length `8 + 4n`, `n <= 65535`) one flipped bit
changes the checksum. -/
def SingleBitLaw (f : List Byte → U16) : Prop :=
  ∀ (n : Nat) (m : List Byte) (o j : Nat), n ≤ Config.maxArgs →
    m.length = Config.hdrLen + Config.argLen * n → o < m.length → j < 8 → f (flipBit m o j) ≠ f m

/-- A checksum algorithm as R5 and I1 admit it: any total function that satisfies the law of R74. -/
structure LawfulCksum where
  /-- The function from byte sequences to checksums. -/
  fn : List Byte → U16
  /-- "required of any instance of the parameter" (R74). -/
  law : SingleBitLaw fn

/-- The sum of the bytes modulo 65536: the additive instance of R76 and of spec/95_test_vectors.md T6b. The
model uses it for one thing, to show that some function satisfies the law. -/
def cksumSum (data : List Byte) : U16 := data.foldl (fun acc b => acc + b.zeroExtend 16) 0

/-- Byte sums that start apart stay apart. -/
theorem cksumSum_start_injective (data : List Byte) (a b : U16)
    (h : data.foldl (fun acc x => acc + x.zeroExtend 16) a =
      data.foldl (fun acc x => acc + x.zeroExtend 16) b) : a = b := by
  induction data generalizing a b with
  | nil => exact h
  | cons x rest ih => exact add_right_cancel (ih _ _ h)

/-- One flipped bit changes the byte sum, whatever it starts from. -/
theorem cksumSum_flip (data : List Byte) {o j : Nat} (ho : o < data.length) (hj : j < 8) (a : U16) :
    (flipBit data o j).foldl (fun acc x => acc + x.zeroExtend 16) a ≠
      data.foldl (fun acc x => acc + x.zeroExtend 16) a := by
  induction data generalizing o a with
  | nil => simp at ho
  | cons x rest ih =>
    intro h
    cases o with
    | zero =>
      have hx : a + (x ^^^ BitVec.twoPow 8 j).zeroExtend 16 = a + x.zeroExtend 16 :=
        cksumSum_start_injective rest _ _ (by simpa [flipBit] using h)
      have hbit := congrArg (fun v : U16 => v.getLsbD j) (add_left_cancel hx)
      simp [hj, show j < 16 by omega] at hbit
    | succ o => exact ih (by simpa using ho) _ (by simpa [flipBit] using h)

/-- "An additive instance ... also satisfies rule R74" (R76). -/
theorem cksumSum_law : SingleBitLaw cksumSum := fun _ m _ _ _ _ ho hj => cksumSum_flip m ho hj 0

namespace Config

/-- The algorithm of the peer: open (R5, R75), but lawful (R74, I1). It has no body, and of the value below
that Lean asks for to admit the type nothing can be proved of it (log entry 4). -/
opaque openCksum [Inhabited LawfulCksum] : LawfulCksum

/-- `CKSUM`: an uninterpreted total function that satisfies the law of R74 (R5, R74, R75, I1; log entry 4). -/
def cksum : List Byte → U16 := (@openCksum ⟨⟨cksumSum, cksumSum_law⟩⟩).fn

end Config

/-- The open parameters of R5 as one argument of every definition that reads them. -/
structure Cfg where
  /-- `BUF_MAX`: the largest number of bytes `RXBUF` may hold. -/
  bufMax : Nat
  /-- `CKSUM`. -/
  cksum : List Byte → U16

/-- The configuration of the modelled instance: `BUF_MAX` any number from 14 on, `CKSUM` any lawful function.
-/
def Config.cfg : Cfg := { bufMax := Config.bufSlack + Config.minFrame, cksum := Config.cksum }

end Sys2Proof
end

