-- ==== Sys2Proof/Syntax.lean ====
section
/-! DEFINITION. The instruction syntax: one constructor per row of spec/opcode_table.json (the operation map
of spec/30_encoding.md R63 and the four frame-format rows of R50 to R53), and the lines of a script (R66). -/

namespace Sys2Proof

/-- The seventeen rows of the operation and frame-format table. -/
inductive Instr where
  /-- `FRAME.HDR` (R51): the 8-byte header word with its command_code and arg_count. -/
  | frameHdr (cmd argCount : U16)
  /-- `FRAME.ARG` (R52): one 4-byte argument word. -/
  | frameArg (w : I32)
  /-- `FRAME.FTR` (R53): the 6-byte footer word with its checksum field. -/
  | frameFtr (checksum : U16)
  /-- `FRAME.N0` (R50): the whole 14-byte frame with arg_count 0. -/
  | frameN0 (cmd checksum : U16)
  /-- `RESET` (R130). -/
  | reset
  /-- `CLOSE` (R131). -/
  | close
  /-- `RX_BYTE(b)` (R105 to R107). -/
  | rxByte (b : Byte)
  /-- `TX_SEND(cmd, args)` (R83, R84); `args` of any length. -/
  | txSend (cmd : U16) (args : List I32)
  /-- `DRAIN` (R108). -/
  | drain
  /-- `SYNC_STEP` (R109 to R112). -/
  | syncStep
  /-- `SCAN_STEP` (R113 to R115). -/
  | scanStep
  /-- `TRYDECODE(buffer)` (R90 to R97). -/
  | tryDecode (buffer : List Byte)
  /-- `ENCODE(cmd, args)` (R80 to R82). -/
  | encode (cmd : U16) (args : List I32)
  /-- `CK_COMPUTE(bytes)` (R70). -/
  | ckCompute (bytes : List Byte)
  /-- `CK_VERIFY(bytes, expected)` (R71). -/
  | ckVerify (bytes : List Byte) (expected : U16)
  /-- `RX_CHUNK(bytes)` (R119). -/
  | rxChunk (bytes : List Byte)
  /-- `RX_FRAME(cmd, args)` (R66). -/
  | rxFrame (cmd : U16) (args : List I32)
  deriving DecidableEq, Repr

/-- One line of a script (R66): a transaction the host has put before the block. Only operations change the
block's state (R8), so a line is one of the four operations, or a pseudo-operation that stands for a sequence
of them, or bytes on the receive wire, to be read against the frame-format rows. The internal functions
`DRAIN`, `SYNC_STEP`, `SCAN_STEP`, `TRYDECODE`, `ENCODE`, `CK_COMPUTE` and `CK_VERIFY` "are not operations"
(R8): no line holds one. DESIGN CHOICE, log entries 1 and 15. -/
inductive Line where
  /-- The operation `RESET`. -/
  | reset
  /-- The operation `CLOSE`. -/
  | close
  /-- The operation `RX_BYTE(b)`. -/
  | rxByte (b : Byte)
  /-- The operation `TX_SEND(cmd, args)`: the line `TX`. -/
  | txSend (cmd : U16) (args : List I32)
  /-- The pseudo-operation `RX_CHUNK(bytes)`: the line `RX`. -/
  | rxChunk (bytes : List Byte)
  /-- The pseudo-operation `RX_FRAME(cmd, args)`: the line `RXF`. -/
  | rxFrame (cmd : U16) (args : List I32)
  /-- Bytes on the receive wire. -/
  | wire (bytes : List Byte)
  deriving DecidableEq, Repr

end Sys2Proof
end

