-- ==== Sys2Proof/WellFormed.lean ====
section
/-! DEFINITION. Which instructions are well formed. Operand widths are in the types, and every value of
command_code, arg_count, checksum and argument is legal (spec/30_encoding.md R59), so the one check left is
the domain of `ENCODE` (spec/41_tx_encode.md R80: `n <= 65535`). -/

namespace Sys2Proof

/-- The domain of `ENCODE` (R80): at most `MAX_ARGS` arguments. -/
def argsInDomain (args : List I32) : Bool := decide (args.length ≤ Config.maxArgs)

/-- The well-formed instructions. `TX_SEND` takes a list of any length (R83) and answers itself for one
that is too long (R84). -/
def Instr.wellFormed : Instr → Bool
  | .frameHdr _ _ => true
  | .frameArg _ => true
  | .frameFtr _ => true
  | .frameN0 _ _ => true
  | .reset => true
  | .close => true
  | .rxByte _ => true
  | .txSend _ _ => true
  | .drain => true
  | .syncStep => true
  | .scanStep => true
  | .tryDecode _ => true
  | .encode _ args => argsInDomain args
  | .ckCompute _ => true
  | .ckVerify _ _ => true
  | .rxChunk _ => true
  | .rxFrame _ args => argsInDomain args

end Sys2Proof
end

