-- ==== Sys2Proof/Decode.lean ====
section
/-! DEFINITION. Bytes and fields (spec/00_scope.md R7, spec/20_memory.md R33), the decoder of the four
frame-format rows (spec/30_encoding.md R50 to R53), the encoder of the same rows, and how a line of a script
becomes an instruction. -/

namespace Sys2Proof

/-! ### Field primitives of R7 -/

/-- The byte `s[o]`. It is defined only for `o < len(s)` (R31); every use stands behind a length test, and
the value 0 beyond the end is never reached by a rule (log entry 12). -/
def byteAt (s : List Byte) (o : Nat) : Byte := s.getD o 0

/-- `be16(s, o)` (R7, R55). -/
def be16 (s : List Byte) (o : Nat) : U16 := byteAt s o ++ byteAt s (o + 1)

/-- `be32u(s, o)` as a 32-bit pattern (R7, R52); read with `BitVec.toInt` it is `be32s(s, o)` (R56). -/
def be32 (s : List Byte) (o : Nat) : BitVec 32 := be16 s o ++ be16 s (o + 2)

/-- `be48(s, o)` (R7, R53). -/
def be48 (s : List Byte) (o : Nat) : BitVec 48 := be16 s o ++ be32 s (o + 2)

/-- `be64(s, o)` (R7, R51). -/
def be64 (s : List Byte) (o : Nat) : BitVec 64 := be32 s o ++ be32 s (o + 4)

/-- `bytes16(v)` (R7): the more significant byte first. -/
def bytes16 (v : U16) : List Byte := [v.extractLsb' 8 8, v.extractLsb' 0 8]

/-- `bytes32(a)` (R7): the most significant byte first. -/
def bytes32 (a : I32) : List Byte :=
  [a.extractLsb' 24 8, a.extractLsb' 16 8, a.extractLsb' 8 8, a.extractLsb' 0 8]

/-! ### The decoder of the frame-format rows -/

/-- Why a byte sequence is no row of the frame format. -/
inductive DecodeError where
  /-- No row of the table has this many bytes. -/
  | noRowOfThisLength
  /-- The start codes of a header are not `EB 90 5B 6A` (R51). -/
  | badStartCode
  /-- The end codes of a footer are not `C5 A4 D2 79` (R53). -/
  | badEndCode
  /-- A 14-byte frame whose arg_count is not 0 (R50, row `FRAME.N0`). -/
  | argCountNotZero
  deriving DecidableEq, Repr

/-- The two start codes stand at offset `o`. -/
def startAt (s : List Byte) (o : Nat) : Bool :=
  be16 s o == Config.start1 && be16 s (o + 2) == Config.start2

/-- The two end codes stand at offset `o`. -/
def endAt (s : List Byte) (o : Nat) : Bool :=
  be16 s o == Config.end1 && be16 s (o + 2) == Config.end2

/-- The instruction a byte sequence on the wire stands for, by its length and its fixed bits (R50 to R53). -/
def decode (s : List Byte) : Except DecodeError Instr :=
  if s.length = 4 then .ok (.frameArg (be32 s 0))
  else if s.length = 6 then
    if endAt s 2 then .ok (.frameFtr (be16 s 0)) else .error .badEndCode
  else if s.length = 8 then
    if startAt s 0 then .ok (.frameHdr (be16 s 4) (be16 s 6)) else .error .badStartCode
  else if s.length = 14 then
    if startAt s 0 then
      if be16 s 6 = 0 then
        if endAt s 10 then .ok (.frameN0 (be16 s 4) (be16 s 8)) else .error .badEndCode
      else .error .argCountNotZero
    else .error .badStartCode
  else .error .noRowOfThisLength

/-! ### The encoder of the same rows -/

/-- The header word's bytes (R50 fields 1 to 4, R51). -/
def headerBytes (cmd argCount : U16) : List Byte :=
  bytes16 Config.start1 ++ bytes16 Config.start2 ++ bytes16 cmd ++ bytes16 argCount

/-- An argument word's bytes (R50 field 5, R52). -/
def argBytes (w : I32) : List Byte := bytes32 w

/-- The footer word's bytes (R50 fields 6 to 8, R53). -/
def footerBytes (checksum : U16) : List Byte :=
  bytes16 checksum ++ bytes16 Config.end1 ++ bytes16 Config.end2

/-- The bytes of an instruction that has a bit encoding; the operations and internal functions have none
(R63: "have no bit encodings"). -/
def encode : Instr → Option (List Byte)
  | .frameHdr cmd argCount => some (headerBytes cmd argCount)
  | .frameArg w => some (argBytes w)
  | .frameFtr checksum => some (footerBytes checksum)
  | .frameN0 cmd checksum => some (headerBytes cmd 0 ++ footerBytes checksum)
  | .reset => none
  | .close => none
  | .rxByte _ => none
  | .txSend _ _ => none
  | .drain => none
  | .syncStep => none
  | .scanStep => none
  | .tryDecode _ => none
  | .encode _ _ => none
  | .ckCompute _ => none
  | .ckVerify _ _ => none
  | .rxChunk _ => none
  | .rxFrame _ _ => none

/-! ### From a script line, and from a word of the table, to an instruction -/

/-- The instruction a line stands for. Bytes that are no frame-format row are still bytes received on the
connection (R60, R156): `RX_CHUNK` of them. DESIGN CHOICE, log entry 15. -/
def fetch : Line → Instr
  | .reset => .reset
  | .close => .close
  | .rxByte b => .rxByte b
  | .txSend cmd args => .txSend cmd args
  | .rxChunk bytes => .rxChunk bytes
  | .rxFrame cmd args => .rxFrame cmd args
  | .wire bytes =>
    match decode bytes with
    | .ok i => i
    | .error _ => .rxChunk bytes

/-- The `len` bytes of the number `w`, most significant first: the byte order of R33, by which the table reads
each row as one big-endian word. -/
def wordBytes (len w : Nat) : List Byte :=
  (List.range len).map fun i => BitVec.ofNat 8 (w >>> (8 * (len - 1 - i)))

/-- The row lengths in bytes, the longest first: `FRAME.N0`, `FRAME.HDR`, `FRAME.FTR`, `FRAME.ARG`. -/
def rowLengths : List Nat := [14, 8, 6, 4]

/-- The bytes of a table word given on its low `nbits` bits, every bit above them 0: of the row lengths that
hold `nbits` bits, the longest whose fixed bits agree (DESIGN CHOICE, log entry 15); the plain bytes where
none does. -/
def tableBytes (nbits w : Nat) : List Byte :=
  if nbits = 0 then []
  else
    let rows := (rowLengths.filter fun len => nbits ≤ 8 * len).map fun len => wordBytes len (w % 2 ^ nbits)
    (rows.find? fun s => (decode s).isOk).getD (wordBytes ((nbits + 7) / 8) (w % 2 ^ nbits))

/-- The instruction the decoder reads from a word of the table. -/
def decodeTableWord (nbits w : Nat) : Option Instr := (decode (tableBytes nbits w)).toOption

end Sys2Proof
end

