-- ==== Sys2Proof/Machine/State.lean ====
section
/-! DEFINITION. The state of one instance (spec/10_state.md R10 to R25), the values that leave it (frames,
events, results), and why a step can stop. -/

namespace Sys2Proof.Machine

/-- `RXMODE` (R13). -/
inductive RxMode where
  /-- A frame is expected to begin at buffer offset 0. -/
  | synchronized
  /-- The buffer is believed corrupt: search for the next start code. -/
  | scanning
  deriving DecidableEq, Repr

/-- `STATUS` (R14). -/
inductive Status where
  /-- The instance serves its connection. -/
  | opened
  /-- A `BufferOverflow` happened; only `RESET` leaves this. -/
  | fatal
  /-- The host closed the connection; only `RESET` leaves this. -/
  | closed
  deriving DecidableEq, Repr

/-- A decoded, validated message (R16). -/
structure Frame where
  /-- command_code, opaque (R59, R99). -/
  cmd : U16
  /-- The arguments in order, each the pattern of an i32. -/
  args : List I32
  deriving DecidableEq, Repr

/-- The outcomes of `TRYDECODE` (R90). -/
inductive DecodeOutcome where
  | incompleteHeader
  | badStartCode
  | incompleteBody
  | badEndCode
  | checksumMismatch
  /-- `Ok(frame, L)`: the frame and the bytes it consumed. -/
  | ok (frame : Frame) (len : Nat)
  deriving DecidableEq, Repr

/-- The kinds of a `Warn` event (R17). -/
inductive WarnKind where
  | badStartCode
  | badEndCode
  | checksumMismatch
  deriving DecidableEq, Repr

/-- The causes of a `Fatal` event (R17). -/
inductive FatalCause where
  | bufferOverflow
  deriving DecidableEq, Repr

/-- An element of the output trace `RXEV` (R17). -/
inductive Event where
  | frame (f : Frame)
  | warn (kind : WarnKind)
  | fatal (cause : FatalCause)
  deriving DecidableEq, Repr

/-- Whether a step of `DRAIN` goes round again (R108). -/
inductive StepResult where
  | wait
  | again
  deriving DecidableEq, Repr

/-- What `RX_BYTE` returns to the host (R105 to R107). -/
inductive RxResult where
  | rxDone
  | rxFatal
  /-- `RxRefused(NotOpen)`. -/
  | rxRefusedNotOpen
  deriving DecidableEq, Repr

/-- What `TX_SEND` returns to the host (R83, R84). -/
inductive TxResult where
  /-- `TxDone(len)`: the frame's length in bytes. -/
  | txDone (len : Nat)
  /-- `TxRefused(NotOpen)`. -/
  | txRefusedNotOpen
  /-- `TxRefused(TooManyArgs)`. -/
  | txRefusedTooManyArgs
  deriving DecidableEq, Repr

/-- What an operation or a function run alone returned: the "result" column of spec/opcode_table.json. -/
inductive Result where
  | rx (r : RxResult)
  | tx (r : TxResult)
  | step (r : StepResult)
  | outcome (r : DecodeOutcome)
  | bytes (r : List Byte)
  | checksum (r : U16)
  | verdict (r : Bool)
  deriving DecidableEq, Repr

/-- The state of one instance, with the observation traces of the spec and the two fields of the model. -/
structure State where
  /-- `RXBUF` (R11), oldest byte first. -/
  rxbuf : List Byte
  /-- `RXMODE` (R13). -/
  rxmode : RxMode
  /-- `STATUS` (R14). -/
  status : Status
  /-- `RXBASE` (R15): bytes removed from the front of `RXBUF` since `RESET`; the parse position. -/
  rxbase : Nat
  /-- `RXEV` (R17), oldest event first. -/
  rxev : List Event
  /-- `TXOUT` (R18). -/
  txout : List Byte
  /-- The results returned to the host (R27, R133), oldest first. DESIGN CHOICE, log entry 7. -/
  results : List Result
  /-- The host's pending transactions (R66), next one first. DESIGN CHOICE, log entry 1. -/
  script : List Line
  deriving DecidableEq, Repr

/-- The state after `RESET` and at power-on (R25). -/
def State.reset : State where
  rxbuf := []
  rxmode := .synchronized
  status := .opened
  rxbase := 0
  rxev := []
  txout := []
  results := []
  script := []

/-- Reasons for the machine to stop with a fault: none. "No input makes the block crash, loop or corrupt its
state" (R156); `BufferOverflow` is a next state (R151; log entry 16). -/
inductive Fault where
  deriving DecidableEq, Repr

/-- Reasons for an instruction to have no meaning. -/
inductive Refusal where
  /-- Raised by `exec` for an instruction whose meaning is not written; safe. No arm raises it. -/
  | notModelled (mnemonic : String)
  /-- Raised by `ENCODE` and `RX_FRAME` of more than 65535 arguments, where R80 says "the function is
  undefined"; safe (log entry 11). -/
  | encodeUndefined
  deriving DecidableEq, Repr

end Sys2Proof.Machine
end

