-- ==== Sys2Proof/Machine/Ops.lean ====
section
/-! DEFINITION. The named operations over the state (spec/00_scope.md R7): reading and writing the receive
buffer, emitting and sending, and the entries and returns of spec/60_exceptions.md R149 to R151. -/

namespace Sys2Proof.Machine

/-! ### The receive buffer as memory -/

/-- `MemRead(o, n)` (R7, R31): the `n` bytes at offset `o`, where they are all present. -/
def State.memRead (s : State) (o n : Nat) : Option (List Byte) :=
  if o + n ≤ s.rxbuf.length then some ((s.rxbuf.drop o).take n) else none

/-- The byte of the received stream at stream offset `a`, where it is in `RXBUF` (R15, R30). -/
def State.streamByte (s : State) (a : Nat) : Option Byte :=
  if a < s.rxbase then none else s.rxbuf[a - s.rxbase]?

/-- `RXLEN` (R12). -/
def State.rxlen (s : State) : Nat := s.rxbuf.length

/-- `Append(b)` (R7). -/
def State.append (s : State) (b : Byte) : State := { s with rxbuf := s.rxbuf ++ [b] }

/-- `DropFront(k)` (R7), defined for `k <= len(RXBUF)`. -/
def State.dropFront (s : State) (k : Nat) : State :=
  { s with rxbuf := s.rxbuf.drop k, rxbase := s.rxbase + k }

/-- `RXBUF <- []` with `RXBASE` left as it is (R131, R151): the clearing of a released instance. -/
def State.clearBuffer (s : State) : State := { s with rxbuf := [] }

/-- The buffer holds at most `bufMax` bytes (R45, R24 (a)): the form every buffer operation keeps. A list of
bytes has no second representation, so equal buffers are equal data (log entry 12). -/
abbrev Memory.wf (bufMax : Nat) (rxbuf : List Byte) : Prop := rxbuf.length ≤ bufMax

/-! ### Modes, status, traces -/

/-- `RXMODE <- m`. -/
def State.setMode (s : State) (m : RxMode) : State := { s with rxmode := m }

/-- `STATUS <- st`. -/
def State.setStatus (s : State) (st : Status) : State := { s with status := st }

/-- `emit e` (R7, R17). -/
def State.emit (s : State) (e : Event) : State := { s with rxev := s.rxev ++ [e] }

/-- `send bytes` (R7, R18). -/
def State.send (s : State) (bytes : List Byte) : State := { s with txout := s.txout ++ bytes }

/-- The operation returns `r` to the host (R27, R133; log entry 7). -/
def State.answer (s : State) (r : Result) : State := { s with results := s.results ++ [r] }

/-! ### Entry and return -/

/-- `raise Warn(kind)`: the resynchronization entry of R149. -/
def State.raiseWarn (s : State) (kind : WarnKind) : State :=
  ((s.emit (.warn kind)).setMode .scanning).dropFront 1

/-- The return to `SYNCHRONIZED` on a scan match at offset `i` (R150, R114). -/
def State.resumeAt (s : State) (i : Nat) : State := (s.dropFront i).setMode .synchronized

/-- `raise Fatal(cause)`: the fatal entry of R151. -/
def State.raiseFatal (s : State) (cause : FatalCause) : State :=
  (((s.emit (.fatal cause)).setStatus .fatal).clearBuffer).setMode .synchronized

/-- `RESET` (R130): every element and trace at its reset value. The host's pending transactions stand outside
the block and stay (log entry 1). -/
def State.restart (s : State) : State := { State.reset with script := s.script }

end Sys2Proof.Machine
end

