-- ==== Sys2Proof/Machine/Session.lean ====
section
/-! DEFINITION. `RESET` and `CLOSE` (spec/44_session_control.md R130, R131). -/

namespace Sys2Proof.Machine

/-- `CLOSE` (R131): from `OPEN` to `CLOSED` with the buffer released; no change otherwise. -/
def closeConnection (s : State) : State :=
  if s.status = .opened then ((s.setStatus .closed).clearBuffer).setMode .synchronized else s

/-- The meaning of `RESET` (R130): in any state. -/
def execReset (s : State) : Host.Outcome State Fault Refusal := .next s.restart

/-- The meaning of `CLOSE` (R131). -/
def execClose (s : State) : Host.Outcome State Fault Refusal := .next (closeConnection s)

end Sys2Proof.Machine
end

