-- ==== Sys2Proof/Machine/Operands.lean ====
section
/-! DEFINITION. The fields of a frame at the front of a buffer (spec/20_memory.md R39, spec/30_encoding.md R50
to R56), with `n` the frame's arg_count. -/

namespace Sys2Proof.Machine

/-- start_code_1 at offset 0. -/
def startCode1 (s : List Byte) : U16 := be16 s 0
/-- start_code_2 at offset 2. -/
def startCode2 (s : List Byte) : U16 := be16 s 2
/-- command_code at offset 4. -/
def cmdField (s : List Byte) : U16 := be16 s 4
/-- arg_count at offset 6. -/
def countField (s : List Byte) : U16 := be16 s 6
/-- arguments[k] at offset `8 + 4k`. -/
def argField (s : List Byte) (k : Nat) : I32 := be32 s (8 + 4 * k)
/-- All `n` arguments in order. -/
def argsField (s : List Byte) (n : Nat) : List I32 := (List.range n).map (argField s)
/-- checksum at offset `8 + 4n`. -/
def checksumField (s : List Byte) (n : Nat) : U16 := be16 s (8 + 4 * n)
/-- end_code_1 at offset `10 + 4n`. -/
def endCode1 (s : List Byte) (n : Nat) : U16 := be16 s (10 + 4 * n)
/-- end_code_2 at offset `12 + 4n`. -/
def endCode2 (s : List Byte) (n : Nat) : U16 := be16 s (12 + 4 * n)
/-- The covered region (R72): offsets 0 up to `8 + 4n`. -/
def coveredRegion (s : List Byte) (n : Nat) : List Byte := s.take (8 + 4 * n)
/-- The length `L = 14 + 4n` of a frame, in arithmetic that does not wrap (R61, R62). -/
def frameLen (n : Nat) : Nat := 14 + 4 * n

/-- The header word `H` (R51). -/
def headerWord (s : List Byte) : BitVec 64 := be64 s 0
/-- The argument word `W` number `k` (R52). -/
def argWord (s : List Byte) (k : Nat) : BitVec 32 := be32 s (8 + 4 * k)
/-- The footer word `T` (R53). -/
def footerWord (s : List Byte) (n : Nat) : BitVec 48 := be48 s (8 + 4 * n)

/-- The least offset at which `START` stands whole in the buffer (R113). -/
def findStart : List Byte → Option Nat
  | [] => none
  | b :: rest =>
    if Config.startBytes.isPrefixOf (b :: rest) then some 0 else (findStart rest).map (· + 1)

end Sys2Proof.Machine
end

