-- ==== Sys2Proof/Machine/Checksum.lean ====
section
/-! DEFINITION. ChecksumEngine (spec/40_checksum.md): `CK_COMPUTE`, `CK_VERIFY`, and the reference structure
and instance of R76 and R77, which no instruction uses. -/

namespace Sys2Proof.Machine

/-- `CK_COMPUTE(bytes)` (R70). -/
def ckCompute (c : Cfg) (bytes : List Byte) : U16 := c.cksum bytes

/-- `CK_VERIFY(bytes, expected)` (R71): all 16 bits compared. -/
def ckVerify (c : Cfg) (bytes : List Byte) (expected : U16) : Bool := ckCompute c bytes == expected

/-- The meaning of `CK_COMPUTE` (R70): no state element is read or written; the value is returned. -/
def execCkCompute (bytes : List Byte) (s : State) : Host.Outcome State Fault Refusal :=
  .next (s.answer (.checksum (ckCompute Config.cfg bytes)))

/-- The meaning of `CK_VERIFY` (R71): no state element is read or written; the verdict is returned. -/
def execCkVerify (bytes : List Byte) (expected : U16) (s : State) : Host.Outcome State Fault Refusal :=
  .next (s.answer (.verdict (ckVerify Config.cfg bytes expected)))

/-! ### The reference structure (R76) and instance (R77), for test vectors only -/

/-- The five values that describe a CRC-16 (R76). -/
structure CrcParams where
  poly : U16
  init : U16
  refin : Bool
  refout : Bool
  xorout : U16
  deriving DecidableEq, Repr

/-- One of the eight shifts per byte (R76). -/
def crcShift (poly crc : U16) : U16 :=
  if crc.msb then (crc <<< 1) ^^^ poly else crc <<< 1

/-- The shift `k` times. -/
def crcShifts (poly : U16) : Nat → U16 → U16
  | 0, crc => crc
  | k + 1, crc => crcShifts poly k (crcShift poly crc)

/-- One byte absorbed into the accumulator (R76). -/
def crcByte (p : CrcParams) (crc : U16) (b : Byte) : U16 :=
  let b' : Byte := if p.refin then b.reverse else b
  crcShifts p.poly 8 (crc ^^^ (b'.zeroExtend 16 <<< 8))

/-- `crc16(data, POLY, INIT, REFIN, REFOUT, XOROUT)` (R76). -/
def crc16 (p : CrcParams) (data : List Byte) : U16 :=
  let crc := data.foldl (crcByte p) p.init
  (if p.refout then crc.reverse else crc) ^^^ p.xorout

/-- The parameters of `CKSUM_REF` (R77). -/
def crcRefParams : CrcParams where
  poly := 0x1021
  init := 0xFFFF
  refin := false
  refout := false
  xorout := 0x0000

/-- `CKSUM_REF` (R77): for test vectors only, not a claim about the peer. -/
def cksumRef (data : List Byte) : U16 := crc16 crcRefParams data

end Sys2Proof.Machine
end

