-- ==== Sys2Proof/Machine/Codec.lean ====
section
/-! DEFINITION. FrameCodec: `ENCODE` (spec/41_tx_encode.md R80 to R82), `TRYDECODE` (spec/42_rx_decode.md R90
to R101), and the predicate `WellFormedFrame` (spec/30_encoding.md R57). -/

namespace Sys2Proof.Machine

/-- The covered region of a frame with these fields (R72, R80): header and arguments. -/
def encodeRegion (cmd : U16) (args : List I32) : List Byte :=
  headerBytes cmd (BitVec.ofNat 16 args.length) ++ args.flatMap argBytes

/-- `ENCODE(cmd, args)` (R80), for at most 65535 arguments. -/
def encodeFrame (c : Cfg) (cmd : U16) (args : List I32) : List Byte :=
  encodeRegion cmd args ++ footerBytes (ckCompute c (encodeRegion cmd args))

/-- `TRYDECODE(buffer)` (R90): the tests in the order of R98, the first that fails decides. -/
def tryDecode (c : Cfg) (buffer : List Byte) : DecodeOutcome :=
  if buffer.length < 8 then .incompleteHeader                                         -- R91
  else if startCode1 buffer ≠ Config.start1 ∨ startCode2 buffer ≠ Config.start2 then
    .badStartCode                                                                     -- R92
  else
    let n := (countField buffer).toNat                                                -- R93
    if buffer.length < frameLen n then .incompleteBody                                -- R94
    else if endCode1 buffer n ≠ Config.end1 ∨ endCode2 buffer n ≠ Config.end2 then
      .badEndCode                                                                     -- R95
    else if ckVerify c (coveredRegion buffer n) (checksumField buffer n) = false then
      .checksumMismatch                                                               -- R96
    else .ok { cmd := cmdField buffer, args := argsField buffer n } (frameLen n)      -- R97

/-- `WellFormedFrame(s)` (R57). -/
abbrev WellFormedFrame (c : Cfg) (s : List Byte) : Prop :=
  14 ≤ s.length ∧ s.take 4 = Config.startBytes ∧
  s.length = frameLen (countField s).toNat ∧
  (s.drop (10 + 4 * (countField s).toNat)).take 4 = Config.endBytes ∧
  checksumField s (countField s).toNat = c.cksum (coveredRegion s (countField s).toNat)

/-- `FrameOf(s)` (R57). -/
def frameOf (s : List Byte) : Frame where
  cmd := cmdField s
  args := argsField s (countField s).toNat

/-- The meaning of `TRYDECODE` (R90): pure; the outcome is returned. -/
def execTryDecode (buffer : List Byte) (s : State) : Host.Outcome State Fault Refusal :=
  .next (s.answer (.outcome (tryDecode Config.cfg buffer)))

/-- The meaning of `ENCODE` (R80): pure; the frame's bytes are returned. Outside its domain "the function is
undefined" (R80): refused by name (log entry 11). -/
def execEncode (cmd : U16) (args : List I32) (s : State) : Host.Outcome State Fault Refusal :=
  if args.length ≤ Config.maxArgs then .next (s.answer (.bytes (encodeFrame Config.cfg cmd args)))
  else .refused .encodeUndefined

end Sys2Proof.Machine
end

