-- ==== Sys2Proof/Machine/Transmit.lean ====
section
/-! DEFINITION. `TX_SEND` (spec/41_tx_encode.md R83 to R85). -/

namespace Sys2Proof.Machine

/-- `TX_SEND(cmd, args)` (R83): the refusals of R84, then the whole frame in one atomic step (R85). -/
def txSend (c : Cfg) (cmd : U16) (args : List I32) (s : State) : TxResult × State :=
  if s.status ≠ .opened then (.txRefusedNotOpen, s)                              -- R84 (a)
  else if Config.maxArgs < args.length then (.txRefusedTooManyArgs, s)           -- R84 (b)
  else (.txDone (frameLen args.length), s.send (encodeFrame c cmd args))         -- R83

/-- The meaning of `TX_SEND` (R83, R84), its result returned to the host. -/
def execTxSend (cmd : U16) (args : List I32) (s : State) : Host.Outcome State Fault Refusal :=
  .next ((txSend Config.cfg cmd args s).2.answer (.tx (txSend Config.cfg cmd args s).1))

end Sys2Proof.Machine
end

