-- ==== Sys2Proof/Machine/Assembler.lean ====
section
/-! DEFINITION. FrameAssembler (spec/43_rx_assembler.md): `SYNC_STEP`, `SCAN_STEP`, `DRAIN`, `RX_BYTE`,
`RX_CHUNK`, `RX_FRAME`. -/

namespace Sys2Proof.Machine

/-- `SYNC_STEP()` (R109): one decode attempt at offset 0. -/
def syncStep (c : Cfg) (s : State) : StepResult × State :=
  match tryDecode c s.rxbuf with
  | .incompleteHeader => (.wait, s)                                              -- R110
  | .incompleteBody => (.wait, s)                                                -- R110
  | .ok f len => (.again, (s.emit (.frame f)).dropFront len)                     -- R111
  | .badStartCode => (.again, s.raiseWarn .badStartCode)                         -- R112
  | .badEndCode => (.again, s.raiseWarn .badEndCode)                             -- R112
  | .checksumMismatch => (.again, s.raiseWarn .checksumMismatch)                 -- R112

/-- `SCAN_STEP()` (R113): one search for `START`. -/
def scanStep (s : State) : StepResult × State :=
  match findStart s.rxbuf with
  | some i => (.again, s.resumeAt i)                                             -- R114
  | none =>                                                                      -- R115
    (.wait, s.dropFront (s.rxbuf.length - min Config.scanKeep s.rxbuf.length))

/-- One step of the current mode (the body of the loop of R108). -/
def drainStep (c : Cfg) (s : State) : StepResult × State :=
  match s.rxmode with
  | .synchronized => syncStep c s
  | .scanning => scanStep s

/-- At most `fuel` steps of the loop of R108, ending at the first that says *wait*. -/
def drainFuel (c : Cfg) : Nat → State → State
  | 0, s => s
  | fuel + 1, s =>
    match drainStep c s with
    | (.wait, s') => s'
    | (.again, s') => drainFuel c fuel s'

/-- `DRAIN()` (R108). The bound is that of R117, "at most `2 * len(RXBUF) + 2` steps"; it is never what
ends the loop (log entry 14). -/
def drain (c : Cfg) (s : State) : State := drainFuel c (2 * s.rxbuf.length + 2) s

/-- `RX_BYTE(b)` (R107's pseudocode; the order of its tests is R152's). -/
def rxByte (c : Cfg) (b : Byte) (s : State) : RxResult × State :=
  if s.status ≠ .opened then (.rxRefusedNotOpen, s)                              -- R105
  else if c.bufMax ≤ s.rxbuf.length then                                         -- R106, log entry 9
    (.rxFatal, s.raiseFatal .bufferOverflow)
  else (.rxDone, drain c (s.append b))                                           -- R107

/-- `RX_BYTE(b)` with its result returned to the host. -/
def rxByteAnswered (c : Cfg) (b : Byte) (s : State) : State :=
  (rxByte c b s).2.answer (.rx (rxByte c b s).1)

/-- `RX_CHUNK(bytes)` (R119): each byte by `RX_BYTE` in order, "stopping early if one returns `RxFatal`"
(log entry 10). -/
def rxChunk (c : Cfg) : List Byte → State → State
  | [], s => s
  | b :: rest, s =>
    if (rxByte c b s).1 = .rxFatal then rxByteAnswered c b s
    else rxChunk c rest (rxByteAnswered c b s)

/-- The meaning of `RX_BYTE` (R105 to R107). -/
def execRxByte (b : Byte) (s : State) : Host.Outcome State Fault Refusal :=
  .next (rxByteAnswered Config.cfg b s)

/-- The meaning of `DRAIN` as a function of the state (R108). It is no operation (R8): no step runs it but
inside `RX_BYTE` (log entry 3). -/
def execDrain (s : State) : Host.Outcome State Fault Refusal := .next (drain Config.cfg s)

/-- The meaning of `SYNC_STEP` as a function of the state (R109 to R112). It is no operation (R8): no step
runs it but inside `RX_BYTE` (log entry 3). -/
def execSyncStep (s : State) : Host.Outcome State Fault Refusal :=
  .next ((syncStep Config.cfg s).2.answer (.step (syncStep Config.cfg s).1))

/-- The meaning of `SCAN_STEP` as a function of the state (R113 to R115). It is no operation (R8): no step
runs it but inside `RX_BYTE` (log entry 3). -/
def execScanStep (s : State) : Host.Outcome State Fault Refusal :=
  .next ((scanStep s).2.answer (.step (scanStep s).1))

/-- The meaning of `RX_CHUNK` (R119). -/
def execRxChunk (bytes : List Byte) (s : State) : Host.Outcome State Fault Refusal :=
  .next (rxChunk Config.cfg bytes s)

/-- The meaning of `RX_FRAME` (R66): `RX_CHUNK(ENCODE(cmd, args))`, refused where `ENCODE` is undefined
(R80; log entry 11). -/
def execRxFrame (cmd : U16) (args : List I32) (s : State) : Host.Outcome State Fault Refusal :=
  if args.length ≤ Config.maxArgs then .next (rxChunk Config.cfg (encodeFrame Config.cfg cmd args) s)
  else .refused .encodeUndefined

end Sys2Proof.Machine
end

