-- ==== Sys2Proof/Machine/Wire.lean ====
section
/-! DEFINITION. The frame-format rows as instructions (spec/30_encoding.md R50 to R53): the word's bytes arrive
at `RX_IN`, the first transmitted byte first, and the receive side recognises them by the rules of
spec/42_rx_decode.md and spec/43_rx_assembler.md. DESIGN CHOICE, log entry 2. -/

namespace Sys2Proof.Machine

/-- The meaning of `FRAME.HDR` (R51). -/
def execFrameHdr (cmd argCount : U16) (s : State) : Host.Outcome State Fault Refusal :=
  .next (rxChunk Config.cfg (headerBytes cmd argCount) s)

/-- The meaning of `FRAME.ARG` (R52). -/
def execFrameArg (w : I32) (s : State) : Host.Outcome State Fault Refusal :=
  .next (rxChunk Config.cfg (argBytes w) s)

/-- The meaning of `FRAME.FTR` (R53). -/
def execFrameFtr (checksum : U16) (s : State) : Host.Outcome State Fault Refusal :=
  .next (rxChunk Config.cfg (footerBytes checksum) s)

/-- The meaning of `FRAME.N0` (R50). -/
def execFrameN0 (cmd checksum : U16) (s : State) : Host.Outcome State Fault Refusal :=
  .next (rxChunk Config.cfg (headerBytes cmd 0 ++ footerBytes checksum) s)

end Sys2Proof.Machine
end

