-- ==== Sys2Proof/Machine/Dispatch.lean ====
section
/-! DEFINITION. One arm per row of spec/opcode_table.json. -/

namespace Sys2Proof.Machine

def exec (i : Instr) (s : State) : Host.Outcome State Fault Refusal :=
  match i with
  | .frameHdr cmd argCount => Sys2Proof.Machine.execFrameHdr cmd argCount s
  | .frameArg w => Sys2Proof.Machine.execFrameArg w s
  | .frameFtr checksum => Sys2Proof.Machine.execFrameFtr checksum s
  | .frameN0 cmd checksum => Sys2Proof.Machine.execFrameN0 cmd checksum s
  | .reset => Sys2Proof.Machine.execReset s
  | .close => Sys2Proof.Machine.execClose s
  | .rxByte b => Sys2Proof.Machine.execRxByte b s
  | .txSend cmd args => Sys2Proof.Machine.execTxSend cmd args s
  | .drain => Sys2Proof.Machine.execDrain s
  | .syncStep => Sys2Proof.Machine.execSyncStep s
  | .scanStep => Sys2Proof.Machine.execScanStep s
  | .tryDecode buffer => Sys2Proof.Machine.execTryDecode buffer s
  | .encode cmd args => Sys2Proof.Machine.execEncode cmd args s
  | .ckCompute bytes => Sys2Proof.Machine.execCkCompute bytes s
  | .ckVerify bytes expected => Sys2Proof.Machine.execCkVerify bytes expected s
  | .rxChunk bytes => Sys2Proof.Machine.execRxChunk bytes s
  | .rxFrame cmd args => Sys2Proof.Machine.execRxFrame cmd args s

end Sys2Proof.Machine
end

