-- ==== Sys2Proof/Machine/Step.lean ====
section
/-! DEFINITION. One step: the next of the host's pending transactions is performed, whole (spec/00_scope.md R8,
spec/20_memory.md R38); with none pending the instance is quiescent and keeps its state
(spec/60_exceptions.md R160). -/

namespace Sys2Proof.Machine

/-- One step: the operation, or the sequence of operations, of the next line of the script (R8). The line is
taken off the script before it runs (log entry 1). -/
def step (s : State) : Host.Outcome State Fault Refusal :=
  match s.script with
  | [] => .next s
  | line :: rest => exec (fetch line) { s with script := rest }

/-- `s` with a table word as the host's next transaction: its bytes stand on the receive wire before
everything else that is pending. -/
def State.withFetchWord (s : State) (nbits w : Nat) : State :=
  { s with script := .wire (tableBytes nbits w) :: s.script }

end Sys2Proof.Machine
end

