-- ==== Sys2Proof/Machine/Flags.lean ====
section
/-! DEFINITION. The block has no flag register (spec/10_state.md R21). What stands in its place: the numeric
codes of spec/60_exceptions.md R141 and spec/10_state.md R13, R14, and the read-only status view of R22. The
names are normative, the numbers are the spec's own (D9). -/

namespace Sys2Proof.Machine

/-- The one-bit code of `RXMODE` (R13). -/
def RxMode.code : RxMode → BitVec 1
  | .synchronized => 0
  | .scanning => 1

/-- The two-bit code of `STATUS` (R14); 3 is not a value. -/
def Status.code : Status → BitVec 2
  | .opened => 0
  | .fatal => 1
  | .closed => 2

/-- The conditions of R141, by name. -/
inductive Condition where
  | ok
  | incompleteHeader
  | incompleteBody
  | badStartCode
  | badEndCode
  | checksumMismatch
  /-- Raised by `RX_BYTE` at a full buffer (R147). -/
  | bufferOverflow
  /-- Raised by the host, by `CLOSE` (R148). -/
  | transportFailure
  deriving DecidableEq, Repr

/-- The code of a condition (R141). -/
def Condition.code : Condition → Nat
  | .ok => 0
  | .incompleteHeader => 1
  | .incompleteBody => 2
  | .badStartCode => 3
  | .badEndCode => 4
  | .checksumMismatch => 5
  | .bufferOverflow => 6
  | .transportFailure => 7

/-- The four classes of the taxonomy of R140, and the success of R141. -/
inductive ConditionClass where
  | success
  /-- "normal consequences of partial TCP delivery" (R140). -/
  | transient
  /-- "the connection survives" (R140). -/
  | recoverableCorruption
  /-- "fatal for that connection; socket is closed, resources released" (R140). -/
  | resourceExhaustion
  /-- "fatal for that connection only" (R140). -/
  | transportFailure
  deriving DecidableEq, Repr

/-- The class of a condition (R140, R141). -/
def Condition.conditionClass : Condition → ConditionClass
  | .ok => .success
  | .incompleteHeader => .transient
  | .incompleteBody => .transient
  | .badStartCode => .recoverableCorruption
  | .badEndCode => .recoverableCorruption
  | .checksumMismatch => .recoverableCorruption
  | .bufferOverflow => .resourceExhaustion
  | .transportFailure => .transportFailure

/-- Whether a condition of the class is fatal for its connection (R140). -/
def ConditionClass.fatal : ConditionClass → Bool
  | .success => false
  | .transient => false
  | .recoverableCorruption => false
  | .resourceExhaustion => true
  | .transportFailure => true

/-- What a condition makes of the status of an `OPEN` instance (R141, column "Effect"; R140). -/
def Condition.statusAfter : Condition → Status
  | .ok => .opened
  | .incompleteHeader => .opened
  | .incompleteBody => .opened
  | .badStartCode => .opened
  | .badEndCode => .opened
  | .checksumMismatch => .opened
  | .bufferOverflow => .fatal
  | .transportFailure => .closed

/-- The condition that an outcome of `TRYDECODE` is (R141). -/
def DecodeOutcome.condition : DecodeOutcome → Condition
  | .ok _ _ => .ok
  | .incompleteHeader => .incompleteHeader
  | .incompleteBody => .incompleteBody
  | .badStartCode => .badStartCode
  | .badEndCode => .badEndCode
  | .checksumMismatch => .checksumMismatch

/-- The condition that a `Warn` event reports (R141). -/
def WarnKind.condition : WarnKind → Condition
  | .badStartCode => .badStartCode
  | .badEndCode => .badEndCode
  | .checksumMismatch => .checksumMismatch

/-- The condition that a `Fatal` event reports (R141). -/
def FatalCause.condition : FatalCause → Condition
  | .bufferOverflow => .bufferOverflow

/-- The code of an outcome (R141). -/
def DecodeOutcome.code (r : DecodeOutcome) : Nat := r.condition.code

/-- The `kind` payload of `WARN_OUT` (R133, R141). -/
def WarnKind.code (k : WarnKind) : Nat := k.condition.code

/-- The `cause` payload of `FATAL_OUT` (R133, R141). -/
def FatalCause.code (k : FatalCause) : Nat := k.condition.code

/-- The class of an outcome of `TRYDECODE` (R140, R141). -/
def DecodeOutcome.outcomeClass (r : DecodeOutcome) : ConditionClass := r.condition.conditionClass

/-- A definitive outcome (R100): one that no further byte changes. -/
def DecodeOutcome.definitive (r : DecodeOutcome) : Bool := decide (r.outcomeClass ≠ .transient)

/-- The width of `STAT.RXLEN`: "`ceil(log2(BUF_MAX+1))` bits" (R22, R12, R44). -/
def rxlenBits (bufMax : Nat) : Nat := Nat.clog 2 (bufMax + 1)

/-- The read-only status view `STAT` of an instance with the cap `bufMax` (R22). -/
structure StatView (bufMax : Nat) where
  /-- `STAT.RXMODE`. -/
  rxmode : BitVec 1
  /-- `STAT.STATUS`. -/
  status : BitVec 2
  /-- `STAT.RXLEN`. -/
  rxlen : BitVec (rxlenBits bufMax)
  deriving DecidableEq, Repr

/-- What a read of the status view gives; it changes nothing (R22). "Values `0..BUF_MAX`": within the cap,
which every operation keeps (R45), the field holds the whole of `RXLEN`. -/
def State.stat (c : Cfg) (s : State) : StatView c.bufMax where
  rxmode := s.rxmode.code
  status := s.status.code
  rxlen := BitVec.ofNat _ s.rxlen

end Sys2Proof.Machine
end

