-- ==== Sys2Proof/Machine/Ports.lean ====
section
/-! DEFINITION. The output ports of spec/44_session_control.md R133 as views of the traces: the three event
ports together carry the one ordered trace `RXEV`. -/

namespace Sys2Proof.Machine

/-- One transaction of `FRAME_OUT`: `cmd`, `argc`, `args`. -/
structure FramePayload where
  cmd : U16
  argc : U16
  args : List I32
  deriving DecidableEq, Repr

/-- The payload of a frame on `FRAME_OUT`. -/
def Frame.payload (f : Frame) : FramePayload where
  cmd := f.cmd
  argc := BitVec.ofNat 16 f.args.length
  args := f.args

/-- What an event puts on `FRAME_OUT`. -/
def Event.frameOut : Event → Option FramePayload
  | .frame f => some f.payload
  | .warn _ => none
  | .fatal _ => none

/-- What an event puts on `WARN_OUT`: the code of its kind. -/
def Event.warnOut : Event → Option Nat
  | .frame _ => none
  | .warn k => some k.code
  | .fatal _ => none

/-- What an event puts on `FATAL_OUT`: the code of its cause. -/
def Event.fatalOut : Event → Option Nat
  | .frame _ => none
  | .warn _ => none
  | .fatal c => some c.code

/-- The transactions of `FRAME_OUT` since `RESET`. -/
def State.framePort (s : State) : List FramePayload := s.rxev.filterMap Event.frameOut

/-- The transactions of `WARN_OUT` since `RESET`. -/
def State.warnPort (s : State) : List Nat := s.rxev.filterMap Event.warnOut

/-- The transactions of `FATAL_OUT` since `RESET`. -/
def State.fatalPort (s : State) : List Nat := s.rxev.filterMap Event.fatalOut

end Sys2Proof.Machine
end

