-- ==== Sys2Proof/Machine/System.lean ====
section
/-! DEFINITION. Any number of independent instances (spec/00_scope.md R6, spec/10_state.md R26,
spec/60_exceptions.md R156, R159, D21): one per connection, with no shared state and no arbiter. -/

namespace Sys2Proof.Machine

/-- A new connection: one more instance, in its reset state (R130, R159). -/
def System.accept (sys : List State) : List State := sys ++ [State.reset]

/-- The host performs one transaction on instance `k`: an operation, a pseudo-operation or bytes on its receive
wire, and nothing else, since "the host cannot write `RXBUF`, `RXMODE` or `STATUS` except through the
operations" (R27, R8). Where there is no such instance nothing happens. -/
def System.perform (sys : List State) (k : Nat) (line : Line) :
    Host.Outcome (List State) Fault Refusal :=
  match sys[k]? with
  | none => .next sys
  | some s =>
    match exec (fetch line) s with
    | .next s' => .next (sys.set k s')
    | .fault r => .fault r
    | .refused r => .refused r

end Sys2Proof.Machine
end

