-- ==== Sys2Proof/Safety.lean ====
section
/-! DEFINITION. The terms in which claims speak: quiescent states (spec/10_state.md R24), runs of several
operations (spec/20_memory.md R38), whole frames on the transmit side (spec/41_tx_encode.md R85), and the
receive side read off the stream without a buffer (spec/43_rx_assembler.md R121). -/

namespace Sys2Proof

/-- The receive-side operation. -/
def Instr.isRxByte : Instr → Bool
  | .rxByte _ => true
  | _ => false

/-- The transmit-side operation. -/
def Instr.isTxSend : Instr → Bool
  | .txSend _ _ => true
  | _ => false

/-- The four operations of the block's interface (R8). -/
def Instr.isOperation : Instr → Bool
  | .frameHdr _ _ => false
  | .frameArg _ => false
  | .frameFtr _ => false
  | .frameN0 _ _ => false
  | .reset => true
  | .close => true
  | .rxByte _ => true
  | .txSend _ _ => true
  | .drain => false
  | .syncStep => false
  | .scanStep => false
  | .tryDecode _ => false
  | .encode _ _ => false
  | .ckCompute _ => false
  | .ckVerify _ _ => false
  | .rxChunk _ => false
  | .rxFrame _ _ => false

end Sys2Proof

namespace Sys2Proof.Machine

/-- The bytes an instruction presents at `RX_IN`, in order (R133; log entry 2 for the frame-format rows). -/
def presented (c : Cfg) : Instr → List Byte
  | .frameHdr cmd argCount => headerBytes cmd argCount
  | .frameArg w => argBytes w
  | .frameFtr checksum => footerBytes checksum
  | .frameN0 cmd checksum => headerBytes cmd 0 ++ footerBytes checksum
  | .reset => []
  | .close => []
  | .rxByte b => [b]
  | .txSend _ _ => []
  | .drain => []
  | .syncStep => []
  | .scanStep => []
  | .tryDecode _ => []
  | .encode _ _ => []
  | .ckCompute _ => []
  | .ckVerify _ _ => []
  | .rxChunk bytes => bytes
  | .rxFrame cmd args => encodeFrame c cmd args

/-- `START` stands whole at some offset of `s`. -/
def containsStart (s : List Byte) : Prop := ∃ i, Config.startBytes <+: s.drop i

/-- The outcome is `IncompleteHeader` or `IncompleteBody`. -/
def DecodeOutcome.incomplete (r : DecodeOutcome) : Prop :=
  r = .incompleteHeader ∨ r = .incompleteBody

/-- A drained buffer: nothing more to do in its mode (R24 (b), (c)). -/
def Drained (c : Cfg) (s : State) : Prop :=
  (s.rxmode = .synchronized → (tryDecode c s.rxbuf).incomplete) ∧
  (s.rxmode = .scanning → s.rxbuf.length ≤ Config.scanKeep ∧ ¬ containsStart s.rxbuf)

/-- A quiescent state (R24): within the cap and drained while `OPEN`, released otherwise. -/
def Quiescent (c : Cfg) (s : State) : Prop :=
  (s.status = .opened → Memory.wf c.bufMax s.rxbuf ∧ Drained c s) ∧
  (s.status ≠ .opened → s.rxbuf = [] ∧ s.rxmode = .synchronized)

/-- The instructions executed one after the other, stopping at the first that gives no next state. With
`Instr.isOperation` of each, the host's operations in their total order (R38). -/
def execAll : List Instr → State → Host.Outcome State Fault Refusal
  | [], s => .next s
  | i :: rest, s =>
    match exec i s with
    | .next s' => execAll rest s'
    | .fault r => .fault r
    | .refused r => .refused r

/-- A concatenation of whole frames (R85). -/
def WholeFrames (c : Cfg) (bytes : List Byte) : Prop :=
  ∃ sent : List Frame, (∀ f ∈ sent, f.args.length ≤ Config.maxArgs) ∧
    bytes = sent.flatMap fun f => encodeFrame c f.cmd f.args

/-- The place of an outcome in the order of the tests (R98). -/
def DecodeOutcome.rank : DecodeOutcome → Nat
  | .incompleteHeader => 0
  | .badStartCode => 1
  | .incompleteBody => 2
  | .badEndCode => 3
  | .checksumMismatch => 4
  | .ok _ _ => 5

/-! ### The receive side over the stream (R121) -/

/-- Where the reading of a stream stands: the position `p`, the mode, and the events so far (R121). -/
structure Walk where
  pos : Nat
  mode : RxMode
  events : List Event
  deriving DecidableEq, Repr

/-- At most `fuel` moves of R121 over the bytes received so far. -/
def walkFuel (c : Cfg) (received : List Byte) : Nat → Walk → Walk
  | 0, w => w
  | fuel + 1, w =>
    match w.mode with
    | .synchronized =>
      match tryDecode c (received.drop w.pos) with
      | .incompleteHeader => w
      | .incompleteBody => w
      | .ok f len =>
        walkFuel c received fuel
          { pos := w.pos + len, mode := .synchronized, events := w.events ++ [.frame f] }
      | .badStartCode =>
        walkFuel c received fuel
          { pos := w.pos + 1, mode := .scanning, events := w.events ++ [.warn .badStartCode] }
      | .badEndCode =>
        walkFuel c received fuel
          { pos := w.pos + 1, mode := .scanning, events := w.events ++ [.warn .badEndCode] }
      | .checksumMismatch =>
        walkFuel c received fuel
          { pos := w.pos + 1, mode := .scanning, events := w.events ++ [.warn .checksumMismatch] }
    | .scanning =>
      match findStart (received.drop w.pos) with
      | some i => walkFuel c received fuel { w with pos := w.pos + i, mode := .synchronized }
      | none => w

/-- R121 from the beginning of the stream: position 0, `SYNCHRONIZED`. Each move but a scan match leaves the
position further on, and a scan match is followed by one that does, so the bound is never what ends it. -/
def streamWalk (c : Cfg) (received : List Byte) : Walk :=
  walkFuel c received (2 * received.length + 2) { pos := 0, mode := .synchronized, events := [] }

/-- The receive side stands where the reading of `received` stands: "At quiescence `RXBASE = p` in
`SYNCHRONIZED`, and in `SCANNING` `RXBASE = max(p, received - 3)`" (R121), and the buffer holds what was
received from there on (R15). -/
def StandsAt (c : Cfg) (received : List Byte) (s : State) : Prop :=
  s.rxev = (streamWalk c received).events ∧ s.rxmode = (streamWalk c received).mode ∧
  (s.rxmode = .synchronized → s.rxbase = (streamWalk c received).pos) ∧
  (s.rxmode = .scanning → s.rxbase = max (streamWalk c received).pos (received.length - 3)) ∧
  s.rxbuf = received.drop s.rxbase

/-- An `OPEN` instance has read some received stream, and nothing else has touched its receive side (R121). -/
def ReadsAStream (c : Cfg) (s : State) : Prop :=
  s.status = .opened → ∃ received, StandsAt c received s

end Sys2Proof.Machine
end

