-- ==== Sys2Proof/Certificates/Slice0/Obligations.lean ====
section
/-! DEFINITION. The statements for the provers. In each, `Config.cfg` is the modelled instance (`BUF_MAX` any
number from 14 on, `CKSUM` any function that satisfies the law of R74); a statement over `c : Cfg` holds for
every configuration. What an operation returns to the host is the last entry of `results` (log entry 7). -/

open Sys2Proof Sys2Proof.Machine

/-! ### Reset, close, and the life of an instance -/

/-- R25, R130: every element and trace the spec gives a reset value has it at power-on and after a `RESET`
issued in any state. -/
def Obligations.PowerOnAndResetGiveEveryElementItsResetValue : Prop :=
  let atReset (t : State) := t.rxbuf = [] ∧ t.rxmode = .synchronized ∧ t.status = .opened ∧
    t.rxbase = 0 ∧ t.rxev = [] ∧ t.txout = []
  atReset State.reset ∧ ∀ s : State, ∃ t, exec .reset s = .next t ∧ atReset t

/-- R131: `CLOSE` in `OPEN`, and in `FATAL` or `CLOSED`. -/
def Obligations.CloseReleasesAnOpenInstanceOnly : Prop :=
  ∀ s : State,
    (s.status = .opened →
      exec .close s = .next { s with status := .closed, rxbuf := [], rxmode := .synchronized }) ∧
    (s.status ≠ .opened → exec .close s = .next s)

/-- R14, R132: `FATAL` and `CLOSED` are left by `RESET` alone, and nothing is emitted or sent in them. -/
def Obligations.DeadInstanceStaysDeadUntilReset : Prop :=
  ∀ (i : Instr) (s t : State), Quiescent Config.cfg s → s.status ≠ .opened → i ≠ .reset →
    exec i s = .next t →
    t.status = s.status ∧ t.rxbuf = s.rxbuf ∧ t.rxmode = s.rxmode ∧ t.rxbase = s.rxbase ∧
    t.rxev = s.rxev ∧ t.txout = s.txout

/-- R14, R151: how the status changes. Only a buffer overflow makes it `FATAL`, its report is then the last
event and the buffer is released; only `CLOSE` makes it `CLOSED`; only `RESET` opens it again. -/
def Obligations.StatusChangesOnlyByOverflowCloseAndReset : Prop :=
  ∀ (i : Instr) (s t : State), exec i s = .next t →
    (t.status = .fatal → s.status ≠ .fatal →
      t.rxbuf = [] ∧ t.rxmode = .synchronized ∧
      ∃ evs, t.rxev = s.rxev ++ evs ++ [.fatal .bufferOverflow]) ∧
    (t.status = .closed → s.status ≠ .closed → i = .close) ∧
    (t.status = .opened → s.status ≠ .opened → i = .reset)

/-- R5, R74: the open parameters meet what is required of any instance of them, and `SCAN_KEEP` is 3. -/
def Obligations.OpenParametersMeetTheirRequirements : Prop :=
  14 ≤ Config.cfg.bufMax ∧ SingleBitLaw Config.cfg.cksum ∧ Config.scanKeep = 3

/-! ### The receive operation -/

/-- R105: a byte in an instance that is not `OPEN`. -/
def Obligations.ReceivedByteIsRefusedUnlessOpen : Prop :=
  ∀ (b : Byte) (s : State), s.status ≠ .opened →
    exec (.rxByte b) s = .next { s with results := s.results ++ [.rx .rxRefusedNotOpen] }

/-- R106: a byte at a full buffer, in either mode. -/
def Obligations.ReceivedByteAtFullBufferIsFatal : Prop :=
  ∀ (b : Byte) (s : State), s.status = .opened → s.rxbuf.length = Config.cfg.bufMax →
    exec (.rxByte b) s = .next { s with
      rxbuf := [], rxmode := .synchronized, status := .fatal,
      rxev := s.rxev ++ [.fatal .bufferOverflow], results := s.results ++ [.rx .rxFatal] }

/-- R107: a byte with room in the buffer. -/
def Obligations.ReceivedByteIsAppendedThenDrained : Prop :=
  ∀ (b : Byte) (s : State), s.status = .opened → s.rxbuf.length < Config.cfg.bufMax →
    exec (.rxByte b) s = .next { drain Config.cfg { s with rxbuf := s.rxbuf ++ [b] } with
      results := s.results ++ [.rx .rxDone] }

/-- R110, R174 (the spec marks it as its own inference): while no frame can be judged, the byte is held and
nothing else happens; below eight bytes that is so whatever the bytes are. -/
def Obligations.ByteOfAnUnfinishedFrameIsHeld : Prop :=
  (∀ (b : Byte) (s : State), s.status = .opened → s.rxmode = .synchronized →
    s.rxbuf.length < Config.cfg.bufMax → (tryDecode Config.cfg (s.rxbuf ++ [b])).incomplete →
    exec (.rxByte b) s = .next { s with
      rxbuf := s.rxbuf ++ [b], results := s.results ++ [.rx .rxDone] }) ∧
  (∀ (b : Byte) (s : State), s.status = .opened → s.rxmode = .synchronized → s.rxbuf.length ≤ 6 →
    exec (.rxByte b) s = .next { s with
      rxbuf := s.rxbuf ++ [b], results := s.results ++ [.rx .rxDone] })

/-- R111, R112, R118: the byte that lets the front of the buffer be judged releases the event for it at
once, before any other event of that byte; the connection survives a corruption. -/
def Obligations.ByteThatSettlesTheFrontReportsItFirst : Prop :=
  ∀ (b : Byte) (s : State), s.status = .opened → s.rxmode = .synchronized →
    s.rxbuf.length < Config.cfg.bufMax →
    (∀ f len, tryDecode Config.cfg (s.rxbuf ++ [b]) = .ok f len →
      ∃ t, exec (.rxByte b) s = .next t ∧ t.status = .opened ∧ s.rxbase + len ≤ t.rxbase ∧
        (s.rxev ++ [.frame f]) <+: t.rxev) ∧
    (∀ k, (tryDecode Config.cfg (s.rxbuf ++ [b]) = .badStartCode ∧ k = WarnKind.badStartCode) ∨
        (tryDecode Config.cfg (s.rxbuf ++ [b]) = .badEndCode ∧ k = WarnKind.badEndCode) ∨
        (tryDecode Config.cfg (s.rxbuf ++ [b]) = .checksumMismatch ∧ k = WarnKind.checksumMismatch) →
      ∃ t, exec (.rxByte b) s = .next t ∧ t.status = .opened ∧ s.rxbase + 1 ≤ t.rxbase ∧
        (s.rxev ++ [.warn k]) <+: t.rxev)

/-- R15, R23 (the spec marks it as its own inference): a byte received with room is at the next stream
offset, and what is in the buffer afterwards is the received bytes from `RXBASE` on: none lost, repeated,
reordered or modified. -/
def Obligations.ReceivedBytesStayInStreamOrder : Prop :=
  ∀ (b : Byte) (s : State), s.status = .opened → s.rxbuf.length < Config.cfg.bufMax →
    ∃ t, exec (.rxByte b) s = .next t ∧ t.status = .opened ∧ t.txout = s.txout ∧
      t.script = s.script ∧ s.rxbase ≤ t.rxbase ∧ t.rxbase ≤ s.rxbase + s.rxbuf.length + 1 ∧
      t.rxbuf = (s.rxbuf ++ [b]).drop (t.rxbase - s.rxbase)

/-- R119: `RX_CHUNK` is its bytes by `RX_BYTE` in order, ended by the first `RxFatal`. -/
def Obligations.ChunkIsItsBytesUntilAFatalOne : Prop :=
  ∀ s : State, exec (.rxChunk []) s = .next s ∧
    ∀ (b : Byte) (rest : List Byte), ∃ u r, exec (.rxByte b) s = .next u ∧
      u.results = s.results ++ [.rx r] ∧
      exec (.rxChunk (b :: rest)) s = if r = .rxFatal then .next u else exec (.rxChunk rest) u

/-- R66, R82, R110, R111 (the source's partial-delivery property): a frame arriving byte by byte at an
empty, synchronized instance yields nothing before its last byte and exactly itself with it. -/
def Obligations.FrameArrivingAtAnEmptyBufferIsDeliveredOnce : Prop :=
  ∀ (cmd : U16) (args : List I32) (s : State), s.status = .opened → s.rxmode = .synchronized →
    s.rxbuf = [] → args.length ≤ 65535 → 14 + 4 * args.length ≤ Config.cfg.bufMax →
    exec (.rxFrame cmd args) s = .next { s with
      rxbase := s.rxbase + (14 + 4 * args.length),
      rxev := s.rxev ++ [.frame { cmd := cmd, args := args }],
      results := s.results ++ List.replicate (14 + 4 * args.length) (.rx .rxDone) } ∧
    ∀ k < 14 + 4 * args.length,
      exec (.rxChunk ((encodeFrame Config.cfg cmd args).take k)) s = .next { s with
        rxbuf := (encodeFrame Config.cfg cmd args).take k,
        results := s.results ++ List.replicate k (.rx .rxDone) }

/-- R172 (the spec marks it as its own inference): a frame longer than `BUF_MAX` ends in `BufferOverflow`,
with no `Frame`. -/
def Obligations.FrameLongerThanTheCapOverflows : Prop :=
  ∀ (c : Cfg) (cmd : U16) (args : List I32) (s : State), s.status = .opened →
    s.rxmode = .synchronized → s.rxbuf = [] → args.length ≤ 65535 →
    c.bufMax < 14 + 4 * args.length →
    (rxChunk c (encodeFrame c cmd args) s).status = .fatal ∧
    (rxChunk c (encodeFrame c cmd args) s).rxbuf = [] ∧
    (rxChunk c (encodeFrame c cmd args) s).rxev = s.rxev ++ [.fatal .bufferOverflow]

/-- R179 (the spec marks it as its own inference): while scanning, bytes without a start code never overflow
and emit nothing. -/
def Obligations.GarbageWithoutStartCodeIsSwallowed : Prop :=
  ∀ (bytes : List Byte) (s : State), Quiescent Config.cfg s → s.status = .opened →
    s.rxmode = .scanning → ¬ containsStart (s.rxbuf ++ bytes) →
    ∃ t, exec (.rxChunk bytes) s = .next t ∧ t.status = .opened ∧ t.rxmode = .scanning ∧
      t.rxev = s.rxev ∧ t.rxbuf.length ≤ 3

/-! ### The steps of the receive side (run alone: log entry 3) -/

/-- R108: the drain loop, with no bound on the number of rounds. -/
def Obligations.DrainRepeatsTheStepOfItsModeUntilWait : Prop :=
  ∀ (c : Cfg) (s : State), drain c s =
    match (if s.rxmode = .synchronized then syncStep c s else scanStep s) with
    | (.wait, t) => t
    | (.again, t) => drain c t

/-- R117 (run alone: log entry 3; the spec marks it as its own inference): `DRAIN` ends, with nothing left
to do in the mode it ends in; it only drops from the front and appends events. -/
def Obligations.DrainEndsWithNothingLeftToDo : Prop :=
  ∀ s : State, ∃ t, exec .drain s = .next t ∧ Drained Config.cfg t ∧
    s.rxbase ≤ t.rxbase ∧ t.rxbase ≤ s.rxbase + s.rxbuf.length ∧
    t.rxbuf = s.rxbuf.drop (t.rxbase - s.rxbase) ∧ s.rxev <+: t.rxev ∧
    t.status = s.status ∧ t.txout = s.txout ∧ t.results = s.results ∧ t.script = s.script

/-- R111 (run alone: log entry 3): `SYNC_STEP` on a whole frame with anything behind it. -/
def Obligations.SyncStepEmitsAWholeFrame : Prop :=
  ∀ (cmd : U16) (args : List I32) (rest : List Byte) (s : State), args.length ≤ 65535 →
    s.rxbuf = encodeFrame Config.cfg cmd args ++ rest →
    exec .syncStep s = .next { s with
      rxbuf := rest, rxbase := s.rxbase + (14 + 4 * args.length),
      rxev := s.rxev ++ [.frame { cmd := cmd, args := args }],
      results := s.results ++ [.step .again] }

/-- R110, R112, R149 (run alone: log entry 3): `SYNC_STEP` on an incomplete frame waits; on a corruption it
makes the resynchronization entry. -/
def Obligations.SyncStepWaitsOrEntersScanning : Prop :=
  ∀ s : State,
    ((tryDecode Config.cfg s.rxbuf).incomplete →
      exec .syncStep s = .next { s with results := s.results ++ [.step .wait] }) ∧
    (∀ k : WarnKind,
      (tryDecode Config.cfg s.rxbuf = .badStartCode ∧ k = .badStartCode) ∨
      (tryDecode Config.cfg s.rxbuf = .badEndCode ∧ k = .badEndCode) ∨
      (tryDecode Config.cfg s.rxbuf = .checksumMismatch ∧ k = .checksumMismatch) →
      exec .syncStep s = .next { s with
        rxbuf := s.rxbuf.drop 1, rxbase := s.rxbase + 1, rxmode := .scanning,
        rxev := s.rxev ++ [.warn k], results := s.results ++ [.step .again] })

/-- R113, R114, R150 (run alone: log entry 3): `SCAN_STEP` where `START` stands, at the least such offset.
-/
def Obligations.ScanStepResumesAtTheFirstStartCode : Prop :=
  ∀ (pre post : List Byte) (s : State), s.rxbuf = pre ++ Config.startBytes ++ post →
    (∀ j < pre.length, ¬ Config.startBytes <+: s.rxbuf.drop j) →
    exec .scanStep s = .next { s with
      rxbuf := Config.startBytes ++ post, rxbase := s.rxbase + pre.length, rxmode := .synchronized,
      results := s.results ++ [.step .again] }

/-- R113, R115 (run alone: log entry 3): `SCAN_STEP` where `START` stands nowhere keeps the last three
bytes. -/
def Obligations.ScanStepKeepsThreeBytesWithoutAStartCode : Prop :=
  ∀ s : State, ¬ containsStart s.rxbuf →
    exec .scanStep s = .next { s with
      rxbuf := s.rxbuf.drop (s.rxbuf.length - 3), rxbase := s.rxbase + (s.rxbuf.length - 3),
      results := s.results ++ [.step .wait] }

/-- R150, R153 (the spec marks it as its own inference): a candidate that a scan has found is never rejected
for its start codes. -/
def Obligations.ScanCandidateNeverHasABadStartCode : Prop :=
  ∀ (c : Cfg) (s : State) (i : Nat), findStart s.rxbuf = some i →
    tryDecode c (s.resumeAt i).rxbuf ≠ .badStartCode

/-! ### What the receive side does to a stream -/

/-- R24 (the spec marks it as its own inference): every step keeps quiescence, and so does every instruction,
the internal functions run alone (log entry 3) included. -/
def Obligations.QuiescenceIsKeptByEveryStep : Prop :=
  (∀ s t : State, Quiescent Config.cfg s → step s = .next t → Quiescent Config.cfg t) ∧
  (∀ (i : Instr) (s t : State), Quiescent Config.cfg s → exec i s = .next t → Quiescent Config.cfg t)

/-- R121 (the spec marks it as its own inference): every step keeps an `OPEN` instance where the reading of
what it has received stands. -/
def Obligations.ReadingOfTheStreamIsKeptByEveryStep : Prop :=
  ∀ s t : State, ReadsAStream Config.cfg s → step s = .next t → ReadsAStream Config.cfg t

/-- R24, R25, R121 (the spec marks R24 and R121 as its own inference): the reset state is quiescent and stands
where the reading of the empty stream stands. -/
def Obligations.ResetStateMeetsTheInvariants : Prop :=
  Quiescent Config.cfg State.reset ∧ StandsAt Config.cfg [] State.reset ∧
    ReadsAStream Config.cfg State.reset

/-- R120 (the spec marks it as its own inference): byte by byte or append then drain, in one read or in two,
as long as no overflow happens. -/
def Obligations.ReceptionDoesNotDependOnHowTheStreamIsCut : Prop :=
  ∀ s t : State, Quiescent Config.cfg s → t.status = .opened →
    (∀ bytes : List Byte, exec (.rxChunk bytes) s = .next t →
      t.rxev = (drain Config.cfg { s with rxbuf := s.rxbuf ++ bytes }).rxev ∧
      t.rxbuf = (drain Config.cfg { s with rxbuf := s.rxbuf ++ bytes }).rxbuf ∧
      t.rxmode = (drain Config.cfg { s with rxbuf := s.rxbuf ++ bytes }).rxmode ∧
      t.rxbase = (drain Config.cfg { s with rxbuf := s.rxbuf ++ bytes }).rxbase) ∧
    (∀ xs ys : List Byte, exec (.rxChunk (xs ++ ys)) s = .next t →
      ∃ u, exec (.rxChunk xs) s = .next u ∧ exec (.rxChunk ys) u = .next t)

/-- R121 (the spec marks it as its own inference): the receive side computes the reading of the stream that
needs no buffer. -/
def Obligations.ReceptionIsTheReadingOfTheStream : Prop :=
  ∀ (bytes : List Byte) (t : State), exec (.rxChunk bytes) State.reset = .next t →
    t.status = .opened →
    t.rxev = (streamWalk Config.cfg bytes).events ∧ t.rxmode = (streamWalk Config.cfg bytes).mode ∧
    (t.rxmode = .synchronized → t.rxbase = (streamWalk Config.cfg bytes).pos) ∧
    (t.rxmode = .scanning → t.rxbase = max (streamWalk Config.cfg bytes).pos (bytes.length - 3)) ∧
    t.rxbuf = bytes.drop t.rxbase

/-- R16, R121 (c), R154 (the spec marks R121 as its own inference): every `Frame` event that any instruction
appends stood whole, checksum and all, in the bytes held and then presented. `RESET` leaves no event. -/
def Obligations.EveryDeliveredFrameStoodWholeInTheReceivedBytes : Prop :=
  ∀ (i : Instr) (s t : State), exec i s = .next t →
    (i = .reset → t.rxev = []) ∧
    (i ≠ .reset → ∃ evs, t.rxev = s.rxev ++ evs ∧
      ∀ f, Event.frame f ∈ evs → f.args.length ≤ 65535 ∧
        ∃ pre post, s.rxbuf ++ presented Config.cfg i =
          pre ++ encodeFrame Config.cfg f.cmd f.args ++ post)

/-- R133, R141: an event appears on exactly one of the three event ports, a frame with its argument count, a
report with the code of its condition; the codes and the classes of R140 are those of R141's table, and the
status of an `OPEN` instance after each entry is the condition's. -/
def Obligations.EventsAppearOnOnePortWithTheirCode : Prop :=
  (∀ (s : State) (f : Frame), f.args.length ≤ 65535 → ∃ p : FramePayload,
    (s.emit (.frame f)).framePort = s.framePort ++ [p] ∧
    p.cmd = f.cmd ∧ p.argc.toNat = f.args.length ∧ p.args = f.args ∧
    (s.emit (.frame f)).warnPort = s.warnPort ∧ (s.emit (.frame f)).fatalPort = s.fatalPort) ∧
  (∀ (s : State) (k : WarnKind),
    (s.emit (.warn k)).warnPort = s.warnPort ++
      [match k with | .badStartCode => 3 | .badEndCode => 4 | .checksumMismatch => 5] ∧
    (s.emit (.warn k)).framePort = s.framePort ∧ (s.emit (.warn k)).fatalPort = s.fatalPort) ∧
  (∀ s : State, (s.emit (.fatal .bufferOverflow)).fatalPort = s.fatalPort ++ [6] ∧
    (s.emit (.fatal .bufferOverflow)).framePort = s.framePort ∧
    (s.emit (.fatal .bufferOverflow)).warnPort = s.warnPort) ∧
  (∀ (f : Frame) (len : Nat), (DecodeOutcome.ok f len).code = 0) ∧
  DecodeOutcome.incompleteHeader.code = 1 ∧ DecodeOutcome.incompleteBody.code = 2 ∧
  DecodeOutcome.badStartCode.code = 3 ∧ DecodeOutcome.badEndCode.code = 4 ∧
  DecodeOutcome.checksumMismatch.code = 5 ∧ Condition.transportFailure.code = 7 ∧
  (∀ x : Condition,
    (x.conditionClass = .success ↔ x.code = 0) ∧
    (x.conditionClass = .transient ↔ x.code = 1 ∨ x.code = 2) ∧
    (x.conditionClass = .recoverableCorruption ↔ x.code = 3 ∨ x.code = 4 ∨ x.code = 5) ∧
    (x.conditionClass = .resourceExhaustion ↔ x.code = 6) ∧
    (x.conditionClass = .transportFailure ↔ x.code = 7) ∧
    (x.conditionClass.fatal = true ↔ x.statusAfter ≠ .opened)) ∧
  (∀ s : State, s.status = .opened →
    (∀ k : WarnKind, (s.raiseWarn k).status = k.condition.statusAfter) ∧
    (∀ k : FatalCause, (s.raiseFatal k).status = k.condition.statusAfter) ∧
    (closeConnection s).status = Condition.transportFailure.statusAfter)

/-! ### The decoder of one frame -/

/-- R91 to R97: each outcome of `TRYDECODE` exactly under its condition, with `n` the arg_count field. -/
def Obligations.TryDecodeAnswersEachOutcomeExactlyWhenItShould : Prop :=
  ∀ (buf : List Byte) (s : State), ∃ r,
    exec (.tryDecode buf) s = .next { s with results := s.results ++ [.outcome r] } ∧
    let n := (be16 buf 6).toNat
    let header := 8 ≤ buf.length ∧ buf.take 4 = Config.startBytes
    let body := header ∧ 14 + 4 * n ≤ buf.length
    let footer := body ∧ (buf.drop (10 + 4 * n)).take 4 = Config.endBytes
    (r = .incompleteHeader ↔ buf.length < 8) ∧
    (r = .badStartCode ↔ 8 ≤ buf.length ∧ buf.take 4 ≠ Config.startBytes) ∧
    (r = .incompleteBody ↔ header ∧ buf.length < 14 + 4 * n) ∧
    (r = .badEndCode ↔ body ∧ (buf.drop (10 + 4 * n)).take 4 ≠ Config.endBytes) ∧
    (r = .checksumMismatch ↔ footer ∧ Config.cfg.cksum (buf.take (8 + 4 * n)) ≠ be16 buf (8 + 4 * n)) ∧
    (∀ f len, r = .ok f len ↔
      footer ∧ Config.cfg.cksum (buf.take (8 + 4 * n)) = be16 buf (8 + 4 * n) ∧ len = 14 + 4 * n ∧
      f = { cmd := be16 buf 4, args := (List.range n).map fun k => be32 buf (8 + 4 * k) })

/-- R100 (the spec marks it as its own inference): stability under extension. -/
def Obligations.DefinitiveOutcomeIsStableUnderExtension : Prop :=
  ∀ (c : Cfg) (b : List Byte),
    ((tryDecode c b).definitive = true →
      (∀ t, tryDecode c (b ++ t) = tryDecode c b) ∧
      (tryDecode c b = .badStartCode → tryDecode c (b.take 8) = .badStartCode) ∧
      (tryDecode c b ≠ .badStartCode →
        tryDecode c (b.take (frameLen (countField b).toNat)) = tryDecode c b)) ∧
    ((tryDecode c b).definitive = false →
      (∃ t, tryDecode c (b ++ t) ≠ tryDecode c b) ∧
      (∀ t, (tryDecode c b).rank ≤ (tryDecode c (b ++ t)).rank))

/-- R57, R101 (the spec marks it as its own inference): the decoder takes a whole byte sequence exactly
where it is a well-formed frame. -/
def Obligations.DecoderAcceptsExactlyTheWellFormedFrames : Prop :=
  ∀ (c : Cfg) (s : List Byte) (f : Frame),
    tryDecode c s = .ok f s.length ↔ WellFormedFrame c s ∧ f = frameOf s

/-- R101, R74 (the spec marks it as its own inference): what one flipped bit in a well-formed frame does, by
the field it falls in, for every checksum that satisfies the law. Where it lowers arg_count to `m`, the bytes
at the offsets that `m` gives decide, and the frame can be accepted. -/
def Obligations.OneFlippedBitByField : Prop :=
  ∀ (c : Cfg) (cmd : U16) (args : List I32) (o j : Nat), SingleBitLaw c.cksum →
    args.length ≤ 65535 → j < 8 →
    let n := args.length
    let s := flipBit (encodeFrame c cmd args) o j
    let m := (be16 s 6).toNat
    (o < 4 → tryDecode c s = .badStartCode) ∧
    ((4 ≤ o ∧ o < 6) ∨ (8 ≤ o ∧ o < 8 + 4 * n) → tryDecode c s = .checksumMismatch) ∧
    ((o = 6 ∨ o = 7) → m ≠ n ∧ (n < m → tryDecode c s = .incompleteBody) ∧
      (m < n → tryDecode c s =
        if (s.drop (10 + 4 * m)).take 4 ≠ Config.endBytes then .badEndCode
        else if c.cksum (s.take (8 + 4 * m)) ≠ be16 s (8 + 4 * m) then .checksumMismatch
        else .ok { cmd := cmd, args := args.take m } (14 + 4 * m))) ∧
    (8 + 4 * n ≤ o → o < 10 + 4 * n → tryDecode c s = .checksumMismatch) ∧
    (10 + 4 * n ≤ o → o < 14 + 4 * n → tryDecode c s = .badEndCode)

/-! ### The encoder and the transmit operation -/

/-- R82 (the spec marks it as its own inference): the frame that `ENCODE` writes is well formed, decodes to
what it was made from whatever follows it, and is written for nothing else. -/
def Obligations.EncodedFrameDecodesToItself : Prop :=
  ∀ (c : Cfg) (cmd : U16) (args : List I32), args.length ≤ 65535 →
    WellFormedFrame c (encodeFrame c cmd args) ∧
    (∀ t, tryDecode c (encodeFrame c cmd args ++ t) =
      .ok { cmd := cmd, args := args } (14 + 4 * args.length)) ∧
    (∀ (cmd' : U16) (args' : List I32), args'.length ≤ 65535 →
      encodeFrame c cmd args = encodeFrame c cmd' args' → cmd = cmd' ∧ args = args')

/-- R81: the length of a frame. -/
def Obligations.EncodedFrameHasFourteenPlusFourBytesPerArgument : Prop :=
  ∀ (c : Cfg) (cmd : U16) (args : List I32),
    (encodeFrame c cmd args).length = 8 + 4 * args.length + 6 ∧
    (args.length = 0 → (encodeFrame c cmd args).length = 14) ∧
    (args.length = 65535 → (encodeFrame c cmd args).length = 262154)

/-- R39, R50, R72, R73: every field of a frame at its offset. -/
def Obligations.EncodedFrameHasEveryFieldAtItsOffset : Prop :=
  ∀ (c : Cfg) (cmd : U16) (args : List I32), args.length ≤ 65535 →
    let n := args.length
    let f := encodeFrame c cmd args
    be16 f 0 = 0xEB90#16 ∧ be16 f 2 = 0x5B6A#16 ∧ be16 f 4 = cmd ∧ (be16 f 6).toNat = n ∧
    (∀ k (h : k < n), be32 f (8 + 4 * k) = args[k]) ∧
    be16 f (8 + 4 * n) = c.cksum (f.take (8 + 4 * n)) ∧
    be16 f (10 + 4 * n) = 0xC5A4#16 ∧ be16 f (12 + 4 * n) = 0xD279#16

/-- R80: `ENCODE` returns the bytes of its pseudocode and touches nothing else. -/
def Obligations.EncodeReturnsTheBytesOfTheFrame : Prop :=
  ∀ (cmd : U16) (args : List I32) (s : State), args.length ≤ 65535 →
    let region := bytes16 0xEB90#16 ++ bytes16 0x5B6A#16 ++ bytes16 cmd ++
      bytes16 (BitVec.ofNat 16 args.length) ++ args.flatMap bytes32
    exec (.encode cmd args) s = .next { s with results := s.results ++
      [.bytes (region ++ bytes16 (Config.cfg.cksum region) ++ bytes16 0xC5A4#16 ++ bytes16 0xD279#16)] }

/-- R83, R84: `TX_SEND` appends one whole frame and answers its length; its two refusals, the status first,
send and change nothing. -/
def Obligations.SendAppendsOneWholeFrameOrIsRefused : Prop :=
  ∀ (cmd : U16) (args : List I32) (s : State),
    (s.status = .opened → args.length ≤ 65535 →
      exec (.txSend cmd args) s = .next { s with
        txout := s.txout ++ encodeFrame Config.cfg cmd args,
        results := s.results ++ [.tx (.txDone (14 + 4 * args.length))] }) ∧
    (s.status ≠ .opened →
      exec (.txSend cmd args) s = .next { s with results := s.results ++ [.tx .txRefusedNotOpen] }) ∧
    (s.status = .opened → 65535 < args.length →
      exec (.txSend cmd args) s = .next { s with results := s.results ++ [.tx .txRefusedTooManyArgs] })

/-- R85: every step, and every instruction, keeps `TXOUT` a concatenation of whole frames. -/
def Obligations.TransmitStreamStaysWholeFrames : Prop :=
  (∀ s t : State, WholeFrames Config.cfg s.txout → step s = .next t → WholeFrames Config.cfg t.txout) ∧
  (∀ (i : Instr) (s t : State), WholeFrames Config.cfg s.txout → exec i s = .next t →
    WholeFrames Config.cfg t.txout)

/-- R42 (the spec marks it as its own inference): with the status staying `OPEN`, the received events depend
on the `RX_BYTE` operations alone and the sent bytes on the `TX_SEND` operations alone. -/
def Obligations.DirectionsDoNotInterfere : Prop :=
  ∀ (ops : List Instr) (s t : State), (∀ i ∈ ops, i.isRxByte = true ∨ i.isTxSend = true) →
    execAll ops s = .next t → t.status = .opened →
    ∃ u v, execAll (ops.filter Instr.isRxByte) s = .next u ∧
      execAll (ops.filter Instr.isTxSend) s = .next v ∧
      u.rxev = t.rxev ∧ u.rxbuf = t.rxbuf ∧ u.rxmode = t.rxmode ∧ u.rxbase = t.rxbase ∧
      v.txout = t.txout

/-! ### The checksum engine -/

/-- R70, R71: `CK_COMPUTE` returns the parameter's value, `CK_VERIFY` compares all its sixteen bits, and
neither touches anything else. -/
def Obligations.ChecksumFunctionsReturnTheParameterAndItsComparison : Prop :=
  ∀ (bytes : List Byte) (expected : U16) (s : State),
    exec (.ckCompute bytes) s =
      .next { s with results := s.results ++ [.checksum (Config.cfg.cksum bytes)] } ∧
    ∃ v, exec (.ckVerify bytes expected) s = .next { s with results := s.results ++ [.verdict v] } ∧
      (v = true ↔ ∀ j < 16, (Config.cfg.cksum bytes).getLsbD j = expected.getLsbD j)

/-- R76 (the spec's own mark: general knowledge): a CRC-16 whose polynomial has bit 0 set satisfies the law
of R74. -/
def Obligations.CrcWithOddPolynomialDetectsOneFlippedBit : Prop :=
  ∀ p : CrcParams, p.poly.getLsbD 0 = true → SingleBitLaw (crc16 p)

/-! ### The frame-format rows -/

/-- R50 to R53: the bytes of a row decode to it, with every operand at every value; and bytes that decode
are the encoding of what they decode to, so no bit of them is ignored. -/
def Obligations.RowsDecodeExactlyFromTheirEncodings : Prop :=
  ∀ (i : Instr) (bytes : List Byte), encode i = some bytes ↔ decode bytes = .ok i

/-- R51, R53 (the spec marks both word views as its own inference): a header and a footer are recognised
exactly by their masks, and their fields are the bit ranges of their words. -/
def Obligations.HeaderAndFooterAreRecognisedByTheirMasks : Prop :=
  (∀ bytes : List Byte, bytes.length = 8 →
    let h := headerWord bytes
    ((∃ i, decode bytes = .ok i) ↔ h &&& 0xFFFFFFFF00000000#64 = 0xEB905B6A00000000#64) ∧
    (∀ i, decode bytes = .ok i → i = .frameHdr (h.extractLsb' 16 16) (h.extractLsb' 0 16) ∧
      h.extractLsb' 48 16 = 0xEB90#16 ∧ h.extractLsb' 32 16 = 0x5B6A#16)) ∧
  (∀ bytes : List Byte, bytes.length = 6 →
    let t := be48 bytes 0
    ((∃ i, decode bytes = .ok i) ↔ t &&& 0x0000FFFFFFFF#48 = 0x0000C5A4D279#48) ∧
    (∀ i, decode bytes = .ok i → i = .frameFtr (t.extractLsb' 32 16) ∧
      t.extractLsb' 16 16 = 0xC5A4#16 ∧ t.extractLsb' 0 16 = 0xD279#16))

/-- R52, R56: every four bytes are an argument, its value the sign-extended big-endian word. That the value of
a pattern is its two's complement is PRESUMED (the spec's own general knowledge, log entry 8). -/
def Obligations.EveryFourBytesAreASignedArgument : Prop :=
  ∀ b0 b1 b2 b3 : Byte, ∃ w : I32, decode [b0, b1, b2, b3] = .ok (.frameArg w) ∧
    let v : Int := b0.toNat * 2 ^ 24 + b1.toNat * 2 ^ 16 + b2.toNat * 2 ^ 8 + b3.toNat
    w.toInt = if v < 2 ^ 31 then v else v - 2 ^ 32

/-- R7, R33, R55: a u16 field is read and written with the more significant byte at the lower offset. -/
def Obligations.SixteenBitFieldsAreBigEndian : Prop :=
  ∀ (s : List Byte) (o : Nat) (h : o + 1 < s.length),
    (be16 s o).toNat = s[o].toNat * 256 + s[o + 1].toNat ∧ bytes16 (be16 s o) = [s[o], s[o + 1]]

/-- R51 to R53, R50: words of the table, written out from their encodings, and bytes that are no row. -/
def Obligations.WrittenOutWordsDecode : Prop :=
  decode [0xEB, 0x90, 0x5B, 0x6A, 0x33, 0x44, 0x00, 0x03] = .ok (.frameHdr 0x3344 3) ∧
  decode [0xFF, 0xF6, 0x04, 0x0F] = .ok (.frameArg (-654321)) ∧
  decode [0x18, 0x1E, 0xC5, 0xA4, 0xD2, 0x79] = .ok (.frameFtr 0x181E) ∧
  decode [0xEB, 0x90, 0x5B, 0x6A, 0x00, 0x01, 0x00, 0x00, 0xD0, 0x5E, 0xC5, 0xA4, 0xD2, 0x79] =
    .ok (.frameN0 1 0xD05E) ∧
  decode [0xEB, 0x90, 0x5B, 0x6B, 0x00, 0x01, 0x00, 0x00] = .error .badStartCode ∧
  decode [0xD0, 0x5E, 0xC5, 0xA4, 0xD2, 0x86] = .error .badEndCode

/-- The model's choice of log entry 2: a frame-format row as an instruction is the arrival of its bytes. -/
def Obligations.FrameWordIsTheArrivalOfItsBytes : Prop :=
  ∀ (cmd n k : U16) (w : I32) (s : State),
    exec (.frameHdr cmd n) s = exec (.rxChunk
      ([0xEB, 0x90, 0x5B, 0x6A] ++ bytes16 cmd ++ bytes16 n)) s ∧
    exec (.frameArg w) s = exec (.rxChunk (bytes32 w)) s ∧
    exec (.frameFtr k) s = exec (.rxChunk (bytes16 k ++ [0xC5, 0xA4, 0xD2, 0x79])) s ∧
    exec (.frameN0 cmd k) s = exec (.rxChunk
      ([0xEB, 0x90, 0x5B, 0x6A] ++ bytes16 cmd ++ [0, 0] ++ bytes16 k ++ [0xC5, 0xA4, 0xD2, 0x79])) s

/-- R91 to R94, R110 (log entry 2): a header word at an empty, synchronized instance is held whole, whatever
its fields. -/
def Obligations.HeaderWordIsHeldAtAnEmptyBuffer : Prop :=
  ∀ (cmd n : U16) (s : State), s.status = .opened → s.rxmode = .synchronized → s.rxbuf = [] →
    exec (.frameHdr cmd n) s = .next { s with
      rxbuf := [0xEB, 0x90, 0x5B, 0x6A] ++ bytes16 cmd ++ bytes16 n,
      results := s.results ++ List.replicate 8 (.rx .rxDone) }

/-- R94, R110 (log entry 2): an argument word behind a header that still awaits it is held. -/
def Obligations.ArgumentWordIsHeldInsideABody : Prop :=
  ∀ (cmd n : U16) (args : List I32) (w : I32) (s : State), s.status = .opened →
    s.rxmode = .synchronized → s.rxbuf = headerBytes cmd n ++ args.flatMap bytes32 →
    args.length < n.toNat → 8 + 4 * args.length + 4 ≤ Config.cfg.bufMax →
    exec (.frameArg w) s = .next { s with
      rxbuf := s.rxbuf ++ bytes32 w, results := s.results ++ List.replicate 4 (.rx .rxDone) }

/-- R95 to R97, R111, R112 (log entry 2): the footer word behind a header and all its arguments completes
the frame: delivered where its checksum is the covered region's, else a `ChecksumMismatch` first. -/
def Obligations.FooterWordCompletesTheFrame : Prop :=
  ∀ (cmd k : U16) (args : List I32) (s : State), s.status = .opened → s.rxmode = .synchronized →
    s.rxbuf = encodeRegion cmd args → args.length ≤ 65535 →
    14 + 4 * args.length ≤ Config.cfg.bufMax →
    (k = Config.cfg.cksum s.rxbuf →
      exec (.frameFtr k) s = .next { s with
        rxbuf := [], rxbase := s.rxbase + (14 + 4 * args.length),
        rxev := s.rxev ++ [.frame { cmd := cmd, args := args }],
        results := s.results ++ List.replicate 6 (.rx .rxDone) }) ∧
    (k ≠ Config.cfg.cksum s.rxbuf →
      ∃ t, exec (.frameFtr k) s = .next t ∧ t.status = .opened ∧
        (s.rxev ++ [.warn .checksumMismatch]) <+: t.rxev)

/-- R50, R96, R97, R112, R115 (log entry 2): the shortest frame at an empty, synchronized instance, with its
checksum right and with it wrong. -/
def Obligations.EmptyFrameWordIsDeliveredOrRejected : Prop :=
  ∀ (cmd k : U16) (s : State), s.status = .opened → s.rxmode = .synchronized → s.rxbuf = [] →
    (k = Config.cfg.cksum (headerBytes cmd 0) →
      exec (.frameN0 cmd k) s = .next { s with
        rxbase := s.rxbase + 14, rxev := s.rxev ++ [.frame { cmd := cmd, args := [] }],
        results := s.results ++ List.replicate 14 (.rx .rxDone) }) ∧
    (k ≠ Config.cfg.cksum (headerBytes cmd 0) →
      exec (.frameN0 cmd k) s = .next { s with
        rxbuf := [0xA4, 0xD2, 0x79], rxmode := .scanning, rxbase := s.rxbase + 11,
        rxev := s.rxev ++ [.warn .checksumMismatch],
        results := s.results ++ List.replicate 14 (.rx .rxDone) })

/-! ### Frames of the whole machine, and the step -/

/-- R156 (the spec marks it as its own inference): "No input makes the block crash, loop or corrupt its
state": every well-formed instruction runs in every state. The ill-formed ones, for which R80 calls `ENCODE`
undefined, are refused by name (the model's choice, log entry 11). -/
def Obligations.ExactlyTheWellFormedInstructionsRun : Prop :=
  ∀ (i : Instr) (s : State),
    (i.wellFormed = true → ∃ t, exec i s = .next t) ∧
    (i.wellFormed = false → exec i s = .refused .encodeUndefined) ∧
    (i.wellFormed = false ↔ ∃ cmd args, (i = .encode cmd args ∨ i = .rxFrame cmd args) ∧ 65535 < args.length)

/-- R42, R70, R71, R80, R83, R90, R131, R151: `TX_SEND` writes `TXOUT` alone, the pure functions write
nothing, and nothing but `TX_SEND` and `RESET` writes `TXOUT`. No instruction touches the host's pending
transactions (the model's own field, log entry 1). -/
def Obligations.EachSideLeavesTheOtherUnchanged : Prop :=
  ∀ (i : Instr) (s t : State), exec i s = .next t →
    t.script = s.script ∧
    (i.isTxSend = true → t = { s with txout := t.txout, results := t.results }) ∧
    ((∃ b, i = .tryDecode b) ∨ (∃ cmd args, i = .encode cmd args) ∨ (∃ b, i = .ckCompute b) ∨
      (∃ b e, i = .ckVerify b e) → t = { s with results := t.results }) ∧
    (i ≠ .reset → i.isTxSend = false → t.txout = s.txout)

/-- R37: a byte that is still in the buffer was never modified, read at its place in the received stream. -/
def Obligations.HeldBytesAreNeverModified : Prop :=
  ∀ (i : Instr) (s t : State) (a : Nat), exec i s = .next t → i ≠ .reset → t.status = s.status →
    t.rxbase ≤ a → a < s.rxbase + s.rxbuf.length → t.streamByte a = s.streamByte a

/-- R40, R85: what has been emitted, sent or answered is never withdrawn, but by `RESET`. -/
def Obligations.HistoryIsNeverWithdrawn : Prop :=
  ∀ (i : Instr) (s t : State), exec i s = .next t → i ≠ .reset →
    s.rxev <+: t.rxev ∧ s.txout <+: t.txout ∧ s.results <+: t.results

/-- R26, R156 on the model's choice of log entry 17, a system as a list of instances: a transaction on one
instance leaves every other instance as it was. -/
def Obligations.InstancesAreIsolated : Prop :=
  ∀ (sys sys' : List State) (k : Nat) (line : Line), System.perform sys k line = .next sys' →
    sys'.length = sys.length ∧ ∀ j, j ≠ k → sys'[j]? = sys[j]?

/-- R8, R27: a step, and the host's action on an instance of a system (log entry 17), change the state by
operations alone, `RESET`, `CLOSE`, `RX_BYTE` and `TX_SEND`, each run whole, one after the other. (Which
operations a line stands for: log entries 1, 2 and 15.) -/
def Obligations.StepChangesTheStateByOperationsAlone : Prop :=
  (∀ s t : State, step s = .next t →
    ∃ ops : List Instr, (∀ i ∈ ops, i.isOperation = true) ∧
      execAll ops { s with script := s.script.tail } = .next t) ∧
  (∀ (sys sys' : List State) (k : Nat) (line : Line) (s : State), sys[k]? = some s →
    System.perform sys k line = .next sys' →
    ∃ (ops : List Instr) (t : State), (∀ i ∈ ops, i.isOperation = true) ∧
      execAll ops s = .next t ∧ sys' = sys.set k t)

/-- R8, R66, R160 (log entries 1 and 15): a step performs the next of the host's transactions, whole: an
operation or a pseudo-operation as it stands, bytes on the wire as the row they decode to, or as plain received
bytes where they are no row. With none pending the instance keeps all its state. -/
def Obligations.StepPerformsTheNextTransaction : Prop :=
  (∀ (s : State) (line : Line) (rest : List Line), s.script = line :: rest →
    step s = exec (fetch line) { s with script := rest }) ∧
  (fetch .reset = .reset ∧ fetch .close = .close ∧ (∀ b, fetch (.rxByte b) = .rxByte b) ∧
    (∀ cmd args, fetch (.txSend cmd args) = .txSend cmd args) ∧
    (∀ bytes, fetch (.rxChunk bytes) = .rxChunk bytes) ∧
    (∀ cmd args, fetch (.rxFrame cmd args) = .rxFrame cmd args)) ∧
  (∀ (bytes : List Byte) (i : Instr), decode bytes = .ok i → fetch (.wire bytes) = i) ∧
  (∀ (bytes : List Byte) (e : DecodeError), decode bytes = .error e → fetch (.wire bytes) = .rxChunk bytes) ∧
  (∀ (s : State) (nbits w : Nat) (i : Instr), decodeTableWord nbits w = some i →
    step (s.withFetchWord nbits w) = exec i s) ∧
  (∀ s : State, s.script = [] → step s = .next s)

/-- R22: the status view, the width of its length field, and what it reads after reset. The length within the
cap is the invariant R24 (a), stated above as a part of quiescence. -/
def Obligations.StatusViewShowsModeStatusAndLength : Prop :=
  (∀ v, rxlenBits Config.cfg.bufMax ≤ v ↔ Config.cfg.bufMax + 1 ≤ 2 ^ v) ∧
  (∀ s : State, let view := s.stat Config.cfg
    ((view.rxmode = 0 ↔ s.rxmode = .synchronized) ∧ (view.rxmode = 1 ↔ s.rxmode = .scanning)) ∧
    ((view.status = 0 ↔ s.status = .opened) ∧ (view.status = 1 ↔ s.status = .fatal) ∧
      (view.status = 2 ↔ s.status = .closed) ∧ view.status ≠ 3) ∧
    (Memory.wf Config.cfg.bufMax s.rxbuf → view.rxlen.toNat = s.rxbuf.length)) ∧
  State.reset.stat Config.cfg = { rxmode := 0, status := 0, rxlen := 0 }
end

