-- ==== Sys2Proof/Laws/Fields.lean ====
section
/-! SUPPORT. The field primitives of R7: lengths, reading a field that stands behind a known prefix, and a
field read back from the bytes it was written as. -/

namespace Sys2Proof

@[simp] theorem bytes16_length (v : U16) : (bytes16 v).length = 2 := rfl
@[simp] theorem bytes32_length (a : I32) : (bytes32 a).length = 4 := rfl
@[simp] theorem headerBytes_length (cmd n : U16) : (headerBytes cmd n).length = 8 := rfl
@[simp] theorem argBytes_length (w : I32) : (argBytes w).length = 4 := rfl
@[simp] theorem footerBytes_length (k : U16) : (footerBytes k).length = 6 := rfl

/-! ### One byte -/

theorem byteAt_append_left {s t : List Byte} {o : Nat} (h : o < s.length) :
    byteAt (s ++ t) o = byteAt s o := by
  simp [byteAt, List.getElem?_append_left h]

theorem byteAt_append_right (s t : List Byte) (o : Nat) :
    byteAt (s ++ t) (s.length + o) = byteAt t o := by
  simp [byteAt, List.getElem?_append_right]

theorem byteAt_drop (s : List Byte) (k o : Nat) : byteAt (s.drop k) o = byteAt s (k + o) := by
  simp [byteAt]

theorem byteAt_take {s : List Byte} {k o : Nat} (h : o < k) : byteAt (s.take k) o = byteAt s o := by
  simp [byteAt, h]

/-! ### Fields -/

theorem be16_append_left {s t : List Byte} {o : Nat} (h : o + 2 ≤ s.length) :
    be16 (s ++ t) o = be16 s o := by
  simp only [be16]
  rw [byteAt_append_left (by omega), byteAt_append_left (by omega)]

theorem be16_append_right (s t : List Byte) (o : Nat) : be16 (s ++ t) (s.length + o) = be16 t o := by
  simp only [be16, byteAt_append_right, Nat.add_assoc]

theorem be32_append_left {s t : List Byte} {o : Nat} (h : o + 4 ≤ s.length) :
    be32 (s ++ t) o = be32 s o := by
  simp only [be32]
  rw [be16_append_left (by omega), be16_append_left (by omega)]

theorem be32_append_right (s t : List Byte) (o : Nat) : be32 (s ++ t) (s.length + o) = be32 t o := by
  simp only [be32, be16_append_right, Nat.add_assoc]

theorem be16_take {s : List Byte} {k o : Nat} (h : o + 2 ≤ k) : be16 (s.take k) o = be16 s o := by
  simp only [be16]
  rw [byteAt_take (by omega), byteAt_take (by omega)]

theorem be32_take {s : List Byte} {k o : Nat} (h : o + 4 ≤ k) : be32 (s.take k) o = be32 s o := by
  simp only [be32]
  rw [be16_take (by omega), be16_take (by omega)]

/-- A u16 read back from its two bytes (R55). -/
@[simp] theorem be16_bytes16 (v : U16) : be16 (bytes16 v) 0 = v := by
  simp only [be16, bytes16, byteAt, List.getD_cons_zero, List.getD_cons_succ]
  apply BitVec.eq_of_getLsbD_eq
  intro i hi
  simp only [BitVec.getLsbD_append, BitVec.getLsbD_extractLsb']
  by_cases h : i < 8
  · simp [h]
  · have h2 : i - 8 < 8 := by omega
    have h3 : 8 + (i - 8) = i := by omega
    simp [h, h2, h3]

/-- An i32 read back from its four bytes (R56). -/
@[simp] theorem be32_bytes32 (a : I32) : be32 (bytes32 a) 0 = a := by
  simp only [be32, be16, bytes32, byteAt, List.getD_cons_zero, List.getD_cons_succ]
  apply BitVec.eq_of_getLsbD_eq
  intro i hi
  simp only [BitVec.getLsbD_append, BitVec.getLsbD_extractLsb']
  rcases (by omega : i < 8 ∨ (8 ≤ i ∧ i < 16) ∨ (16 ≤ i ∧ i < 24) ∨ (24 ≤ i ∧ i < 32)) with h | h | h | h
  · have h1 : i < 16 := by omega
    simp [h, h1]
  · have h1 : ¬ i < 8 := by omega
    have h2 : i - 8 < 8 := by omega
    have h3 : 8 + (i - 8) = i := by omega
    simp [h.2, h1, h2, h3]
  · have h1 : ¬ i < 16 := by omega
    have h2 : i - 16 < 8 := by omega
    have h3 : 16 + (i - 16) = i := by omega
    simp [h1, h2, h3]
  · have h1 : ¬ i < 16 := by omega
    have h2 : ¬ i - 16 < 8 := by omega
    have h4 : i - 16 - 8 < 8 := by omega
    have h3 : 24 + (i - 16 - 8) = i := by omega
    simp [h1, h2, h3, h4]

/-- The two bytes of a u16 field, written again from the field (R55). -/
theorem bytes16_be16 (s : List Byte) (o : Nat) :
    bytes16 (be16 s o) = [byteAt s o, byteAt s (o + 1)] := by
  have key (i : Nat) : BitVec.getLsbD (be16 s o) i =
      if i < 8 then (byteAt s (o + 1)).getLsbD i else (byteAt s o).getLsbD (i - 8) :=
    BitVec.getLsbD_append
  simp only [bytes16, List.cons.injEq, and_true]
  constructor <;> (apply BitVec.eq_of_getLsbD_eq; intro i hi; simp [key, hi])

end Sys2Proof
end

