-- ==== Sys2Proof/Laws/State.lean ====
section
/-! SUPPORT. What each operation over the state does to each field, one lemma per field per operation. -/

namespace Sys2Proof.Machine

variable (s : State)

/-! ### `append` -/

@[simp] theorem State.append_rxbuf (b : Byte) : (s.append b).rxbuf = s.rxbuf ++ [b] := rfl
@[simp] theorem State.append_rxmode (b : Byte) : (s.append b).rxmode = s.rxmode := rfl
@[simp] theorem State.append_status (b : Byte) : (s.append b).status = s.status := rfl
@[simp] theorem State.append_rxbase (b : Byte) : (s.append b).rxbase = s.rxbase := rfl
@[simp] theorem State.append_rxev (b : Byte) : (s.append b).rxev = s.rxev := rfl
@[simp] theorem State.append_txout (b : Byte) : (s.append b).txout = s.txout := rfl
@[simp] theorem State.append_results (b : Byte) : (s.append b).results = s.results := rfl
@[simp] theorem State.append_script (b : Byte) : (s.append b).script = s.script := rfl

/-! ### `dropFront` -/

@[simp] theorem State.dropFront_rxbuf (k : Nat) : (s.dropFront k).rxbuf = s.rxbuf.drop k := rfl
@[simp] theorem State.dropFront_rxmode (k : Nat) : (s.dropFront k).rxmode = s.rxmode := rfl
@[simp] theorem State.dropFront_status (k : Nat) : (s.dropFront k).status = s.status := rfl
@[simp] theorem State.dropFront_rxbase (k : Nat) : (s.dropFront k).rxbase = s.rxbase + k := rfl
@[simp] theorem State.dropFront_rxev (k : Nat) : (s.dropFront k).rxev = s.rxev := rfl
@[simp] theorem State.dropFront_txout (k : Nat) : (s.dropFront k).txout = s.txout := rfl
@[simp] theorem State.dropFront_results (k : Nat) : (s.dropFront k).results = s.results := rfl
@[simp] theorem State.dropFront_script (k : Nat) : (s.dropFront k).script = s.script := rfl

/-! ### `clearBuffer` -/

@[simp] theorem State.clearBuffer_rxbuf : s.clearBuffer.rxbuf = [] := rfl
@[simp] theorem State.clearBuffer_rxmode : s.clearBuffer.rxmode = s.rxmode := rfl
@[simp] theorem State.clearBuffer_status : s.clearBuffer.status = s.status := rfl
@[simp] theorem State.clearBuffer_rxbase : s.clearBuffer.rxbase = s.rxbase := rfl
@[simp] theorem State.clearBuffer_rxev : s.clearBuffer.rxev = s.rxev := rfl
@[simp] theorem State.clearBuffer_txout : s.clearBuffer.txout = s.txout := rfl
@[simp] theorem State.clearBuffer_results : s.clearBuffer.results = s.results := rfl
@[simp] theorem State.clearBuffer_script : s.clearBuffer.script = s.script := rfl

/-! ### `setMode` -/

@[simp] theorem State.setMode_rxbuf (m : RxMode) : (s.setMode m).rxbuf = s.rxbuf := rfl
@[simp] theorem State.setMode_rxmode (m : RxMode) : (s.setMode m).rxmode = m := rfl
@[simp] theorem State.setMode_status (m : RxMode) : (s.setMode m).status = s.status := rfl
@[simp] theorem State.setMode_rxbase (m : RxMode) : (s.setMode m).rxbase = s.rxbase := rfl
@[simp] theorem State.setMode_rxev (m : RxMode) : (s.setMode m).rxev = s.rxev := rfl
@[simp] theorem State.setMode_txout (m : RxMode) : (s.setMode m).txout = s.txout := rfl
@[simp] theorem State.setMode_results (m : RxMode) : (s.setMode m).results = s.results := rfl
@[simp] theorem State.setMode_script (m : RxMode) : (s.setMode m).script = s.script := rfl

/-! ### `setStatus` -/

@[simp] theorem State.setStatus_rxbuf (st : Status) : (s.setStatus st).rxbuf = s.rxbuf := rfl
@[simp] theorem State.setStatus_rxmode (st : Status) : (s.setStatus st).rxmode = s.rxmode := rfl
@[simp] theorem State.setStatus_status (st : Status) : (s.setStatus st).status = st := rfl
@[simp] theorem State.setStatus_rxbase (st : Status) : (s.setStatus st).rxbase = s.rxbase := rfl
@[simp] theorem State.setStatus_rxev (st : Status) : (s.setStatus st).rxev = s.rxev := rfl
@[simp] theorem State.setStatus_txout (st : Status) : (s.setStatus st).txout = s.txout := rfl
@[simp] theorem State.setStatus_results (st : Status) : (s.setStatus st).results = s.results := rfl
@[simp] theorem State.setStatus_script (st : Status) : (s.setStatus st).script = s.script := rfl

/-! ### `emit` -/

@[simp] theorem State.emit_rxbuf (e : Event) : (s.emit e).rxbuf = s.rxbuf := rfl
@[simp] theorem State.emit_rxmode (e : Event) : (s.emit e).rxmode = s.rxmode := rfl
@[simp] theorem State.emit_status (e : Event) : (s.emit e).status = s.status := rfl
@[simp] theorem State.emit_rxbase (e : Event) : (s.emit e).rxbase = s.rxbase := rfl
@[simp] theorem State.emit_rxev (e : Event) : (s.emit e).rxev = s.rxev ++ [e] := rfl
@[simp] theorem State.emit_txout (e : Event) : (s.emit e).txout = s.txout := rfl
@[simp] theorem State.emit_results (e : Event) : (s.emit e).results = s.results := rfl
@[simp] theorem State.emit_script (e : Event) : (s.emit e).script = s.script := rfl

/-! ### `send` -/

@[simp] theorem State.send_rxbuf (bytes : List Byte) : (s.send bytes).rxbuf = s.rxbuf := rfl
@[simp] theorem State.send_rxmode (bytes : List Byte) : (s.send bytes).rxmode = s.rxmode := rfl
@[simp] theorem State.send_status (bytes : List Byte) : (s.send bytes).status = s.status := rfl
@[simp] theorem State.send_rxbase (bytes : List Byte) : (s.send bytes).rxbase = s.rxbase := rfl
@[simp] theorem State.send_rxev (bytes : List Byte) : (s.send bytes).rxev = s.rxev := rfl
@[simp] theorem State.send_txout (bytes : List Byte) : (s.send bytes).txout = s.txout ++ bytes := rfl
@[simp] theorem State.send_results (bytes : List Byte) : (s.send bytes).results = s.results := rfl
@[simp] theorem State.send_script (bytes : List Byte) : (s.send bytes).script = s.script := rfl

/-! ### `answer` -/

@[simp] theorem State.answer_rxbuf (r : Result) : (s.answer r).rxbuf = s.rxbuf := rfl
@[simp] theorem State.answer_rxmode (r : Result) : (s.answer r).rxmode = s.rxmode := rfl
@[simp] theorem State.answer_status (r : Result) : (s.answer r).status = s.status := rfl
@[simp] theorem State.answer_rxbase (r : Result) : (s.answer r).rxbase = s.rxbase := rfl
@[simp] theorem State.answer_rxev (r : Result) : (s.answer r).rxev = s.rxev := rfl
@[simp] theorem State.answer_txout (r : Result) : (s.answer r).txout = s.txout := rfl
@[simp] theorem State.answer_results (r : Result) : (s.answer r).results = s.results ++ [r] := rfl
@[simp] theorem State.answer_script (r : Result) : (s.answer r).script = s.script := rfl

/-! ### `raiseWarn` -/

@[simp] theorem State.raiseWarn_rxbuf (k : WarnKind) : (s.raiseWarn k).rxbuf = s.rxbuf.drop 1 := rfl
@[simp] theorem State.raiseWarn_rxmode (k : WarnKind) : (s.raiseWarn k).rxmode = .scanning := rfl
@[simp] theorem State.raiseWarn_status (k : WarnKind) : (s.raiseWarn k).status = s.status := rfl
@[simp] theorem State.raiseWarn_rxbase (k : WarnKind) : (s.raiseWarn k).rxbase = s.rxbase + 1 := rfl
@[simp] theorem State.raiseWarn_rxev (k : WarnKind) : (s.raiseWarn k).rxev = s.rxev ++ [.warn k] := rfl
@[simp] theorem State.raiseWarn_txout (k : WarnKind) : (s.raiseWarn k).txout = s.txout := rfl
@[simp] theorem State.raiseWarn_results (k : WarnKind) : (s.raiseWarn k).results = s.results := rfl
@[simp] theorem State.raiseWarn_script (k : WarnKind) : (s.raiseWarn k).script = s.script := rfl

/-! ### `resumeAt` -/

@[simp] theorem State.resumeAt_rxbuf (i : Nat) : (s.resumeAt i).rxbuf = s.rxbuf.drop i := rfl
@[simp] theorem State.resumeAt_rxmode (i : Nat) : (s.resumeAt i).rxmode = .synchronized := rfl
@[simp] theorem State.resumeAt_status (i : Nat) : (s.resumeAt i).status = s.status := rfl
@[simp] theorem State.resumeAt_rxbase (i : Nat) : (s.resumeAt i).rxbase = s.rxbase + i := rfl
@[simp] theorem State.resumeAt_rxev (i : Nat) : (s.resumeAt i).rxev = s.rxev := rfl
@[simp] theorem State.resumeAt_txout (i : Nat) : (s.resumeAt i).txout = s.txout := rfl
@[simp] theorem State.resumeAt_results (i : Nat) : (s.resumeAt i).results = s.results := rfl
@[simp] theorem State.resumeAt_script (i : Nat) : (s.resumeAt i).script = s.script := rfl

/-! ### `raiseFatal` -/

@[simp] theorem State.raiseFatal_rxbuf (k : FatalCause) : (s.raiseFatal k).rxbuf = [] := rfl
@[simp] theorem State.raiseFatal_rxmode (k : FatalCause) : (s.raiseFatal k).rxmode = .synchronized := rfl
@[simp] theorem State.raiseFatal_status (k : FatalCause) : (s.raiseFatal k).status = .fatal := rfl
@[simp] theorem State.raiseFatal_rxbase (k : FatalCause) : (s.raiseFatal k).rxbase = s.rxbase := rfl
@[simp] theorem State.raiseFatal_rxev (k : FatalCause) : (s.raiseFatal k).rxev = s.rxev ++ [.fatal k] := rfl
@[simp] theorem State.raiseFatal_txout (k : FatalCause) : (s.raiseFatal k).txout = s.txout := rfl
@[simp] theorem State.raiseFatal_results (k : FatalCause) : (s.raiseFatal k).results = s.results := rfl
@[simp] theorem State.raiseFatal_script (k : FatalCause) : (s.raiseFatal k).script = s.script := rfl

/-! ### `restart` -/

@[simp] theorem State.restart_rxbuf : s.restart.rxbuf = [] := rfl
@[simp] theorem State.restart_rxmode : s.restart.rxmode = .synchronized := rfl
@[simp] theorem State.restart_status : s.restart.status = .opened := rfl
@[simp] theorem State.restart_rxbase : s.restart.rxbase = 0 := rfl
@[simp] theorem State.restart_rxev : s.restart.rxev = [] := rfl
@[simp] theorem State.restart_txout : s.restart.txout = [] := rfl
@[simp] theorem State.restart_results : s.restart.results = [] := rfl
@[simp] theorem State.restart_script : s.restart.script = s.script := rfl

end Sys2Proof.Machine
end

