-- ==== Sys2Proof/Laws/Ops.lean ====
section
/-! SUPPORT. The shared operations over the receive buffer keep its form (R45), and what a read of the
buffer and of the received stream gives after each of them. -/

namespace Sys2Proof.Machine

variable {bufMax : Nat}

/-! ### The form of the buffer -/

theorem reset_rxbuf_wf : Memory.wf bufMax State.reset.rxbuf := Nat.zero_le _

theorem append_keeps_wf {s : State} (b : Byte) (h : s.rxbuf.length < bufMax) :
    Memory.wf bufMax (s.append b).rxbuf := by
  simp only [Memory.wf, State.append_rxbuf, List.length_append, List.length_cons, List.length_nil]
  omega

theorem dropFront_keeps_wf {s : State} (k : Nat) (h : Memory.wf bufMax s.rxbuf) :
    Memory.wf bufMax (s.dropFront k).rxbuf := by
  simp only [Memory.wf, State.dropFront_rxbuf, List.length_drop] at *
  omega

theorem clearBuffer_keeps_wf {s : State} : Memory.wf bufMax s.clearBuffer.rxbuf := Nat.zero_le _

theorem raiseWarn_keeps_wf {s : State} (k : WarnKind) (h : Memory.wf bufMax s.rxbuf) :
    Memory.wf bufMax (s.raiseWarn k).rxbuf := dropFront_keeps_wf (s := s) 1 h

theorem resumeAt_keeps_wf {s : State} (i : Nat) (h : Memory.wf bufMax s.rxbuf) :
    Memory.wf bufMax (s.resumeAt i).rxbuf := dropFront_keeps_wf (s := s) i h

theorem raiseFatal_keeps_wf {s : State} (k : FatalCause) :
    Memory.wf bufMax (s.raiseFatal k).rxbuf := Nat.zero_le _

theorem restart_keeps_wf {s : State} : Memory.wf bufMax s.restart.rxbuf := Nat.zero_le _

/-! ### Reading back -/

theorem streamByte_append_new (s : State) (b : Byte) :
    (s.append b).streamByte (s.rxbase + s.rxbuf.length) = some b := by
  simp [State.streamByte]

theorem streamByte_append_old (s : State) (b : Byte) {a : Nat} (h : a < s.rxbase + s.rxbuf.length) :
    (s.append b).streamByte a = s.streamByte a := by
  simp only [State.streamByte, State.append_rxbase, State.append_rxbuf]
  by_cases hb : a < s.rxbase
  · simp [hb]
  · simp only [hb, if_false]
    exact List.getElem?_append_left (by omega)

theorem streamByte_dropFront (s : State) (k : Nat) {a : Nat} (h : s.rxbase + k ≤ a) :
    (s.dropFront k).streamByte a = s.streamByte a := by
  simp only [State.streamByte, State.dropFront_rxbase, State.dropFront_rxbuf, List.getElem?_drop]
  rw [if_neg (by omega), if_neg (by omega)]
  congr 1
  omega

/-! ### The search of `SCAN_STEP` -/

/-- Where the search finds `START`: it stands there, and at no lower offset (R113). -/
theorem findStart_some {s : List Byte} {i : Nat} (h : findStart s = some i) :
    Config.startBytes <+: s.drop i ∧ ∀ j < i, ¬ Config.startBytes <+: s.drop j := by
  induction s generalizing i with
  | nil => simp [findStart] at h
  | cons b rest ih =>
    rw [findStart] at h
    split at h
    · rename_i hp
      obtain rfl : 0 = i := by simpa using h
      exact ⟨by simpa using List.isPrefixOf_iff_prefix.mp hp, by omega⟩
    · rename_i hp
      obtain ⟨k, hk, rfl⟩ := Option.map_eq_some_iff.mp h
      obtain ⟨hat, hleast⟩ := ih hk
      refine ⟨by simpa using hat, fun j hj => ?_⟩
      cases j with
      | zero => exact fun hq => hp (List.isPrefixOf_iff_prefix.mpr (by simpa using hq))
      | succ j => simpa using hleast j (by omega)

/-- Where the search finds nothing: `START` stands at no offset (R115). -/
theorem findStart_none {s : List Byte} (h : findStart s = none) (j : Nat) :
    ¬ Config.startBytes <+: s.drop j := by
  induction s generalizing j with
  | nil => simp [Config.startBytes]
  | cons b rest ih =>
    rw [findStart] at h
    split at h
    · simp at h
    · rename_i hp
      cases j with
      | zero => exact fun hq => hp (List.isPrefixOf_iff_prefix.mpr (by simpa using hq))
      | succ j => simpa using ih (by simpa using h) j

end Sys2Proof.Machine
end

