-- ==== Sys2Proof/Laws/Codec.lean ====
section
/-! SUPPORT. What `TRYDECODE` and `ENCODE` can answer, said once. -/

namespace Sys2Proof.Machine

variable (c : Cfg)

/-- The start codes are good exactly where the first four bytes are `START` (R92). -/
theorem startCodes_iff {s : List Byte} (h : 4 ≤ s.length) :
    (startCode1 s = Config.start1 ∧ startCode2 s = Config.start2) ↔ s.take 4 = Config.startBytes := by
  match s, h with
  | a :: b :: x :: y :: rest, _ =>
    constructor
    · rintro ⟨h1, h2⟩
      have e1 := bytes16_be16 (a :: b :: x :: y :: rest) 0
      have e2 := bytes16_be16 (a :: b :: x :: y :: rest) 2
      rw [startCode1] at h1
      rw [startCode2] at h2
      rw [h1] at e1
      rw [h2] at e2
      simp only [bytes16, Config.start1, byteAt, List.getD_cons_zero, List.getD_cons_succ,
        List.cons.injEq, and_true] at e1
      simp only [bytes16, Config.start2, byteAt, List.getD_cons_zero, List.getD_cons_succ,
        List.cons.injEq, and_true] at e2
      simp only [List.take_succ_cons, List.take_zero, Config.startBytes, ← e1.1, ← e1.2, ← e2.1, ← e2.2]
      decide
    · intro h4
      simp only [List.take_succ_cons, List.take_zero, Config.startBytes, List.cons.injEq, and_true] at h4
      obtain ⟨rfl, rfl, rfl, rfl⟩ := h4
      exact ⟨by simp [startCode1, be16, byteAt, Config.start1],
        by simp [startCode2, be16, byteAt, Config.start2]⟩

/-- The six things `TRYDECODE` can answer, each with everything that holds then (R91 to R97). -/
theorem tryDecode_cases (s : List Byte) :
    (s.length < 8 ∧ tryDecode c s = .incompleteHeader) ∨
    (8 ≤ s.length ∧ (startCode1 s ≠ Config.start1 ∨ startCode2 s ≠ Config.start2) ∧
      tryDecode c s = .badStartCode) ∨
    (8 ≤ s.length ∧ startCode1 s = Config.start1 ∧ startCode2 s = Config.start2 ∧
      ((s.length < frameLen (countField s).toNat ∧ tryDecode c s = .incompleteBody) ∨
       (frameLen (countField s).toNat ≤ s.length ∧
        (endCode1 s (countField s).toNat ≠ Config.end1 ∨ endCode2 s (countField s).toNat ≠ Config.end2) ∧
        tryDecode c s = .badEndCode) ∨
       (frameLen (countField s).toNat ≤ s.length ∧
        endCode1 s (countField s).toNat = Config.end1 ∧ endCode2 s (countField s).toNat = Config.end2 ∧
        ((c.cksum (coveredRegion s (countField s).toNat) ≠ checksumField s (countField s).toNat ∧
          tryDecode c s = .checksumMismatch) ∨
         (c.cksum (coveredRegion s (countField s).toNat) = checksumField s (countField s).toNat ∧
          tryDecode c s = .ok { cmd := cmdField s, args := argsField s (countField s).toNat }
            (frameLen (countField s).toNat)))))) := by
  by_cases h8 : s.length < 8
  · exact .inl ⟨h8, by rw [tryDecode, if_pos h8]⟩
  refine .inr ?_
  by_cases hst : startCode1 s ≠ Config.start1 ∨ startCode2 s ≠ Config.start2
  · exact .inl ⟨by omega, hst, by rw [tryDecode, if_neg h8, if_pos hst]⟩
  refine .inr ⟨by omega, by tauto, by tauto, ?_⟩
  by_cases hb : s.length < frameLen (countField s).toNat
  · exact .inl ⟨hb, by rw [tryDecode, if_neg h8, if_neg hst]; exact if_pos hb⟩
  refine .inr ?_
  by_cases he : endCode1 s (countField s).toNat ≠ Config.end1 ∨
      endCode2 s (countField s).toNat ≠ Config.end2
  · exact .inl ⟨by omega, he, by
      rw [tryDecode, if_neg h8, if_neg hst]; exact (if_neg hb).trans (if_pos he)⟩
  refine .inr ⟨by omega, by tauto, by tauto, ?_⟩
  by_cases hk : c.cksum (coveredRegion s (countField s).toNat) = checksumField s (countField s).toNat
  · exact .inr ⟨hk, by
      rw [tryDecode, if_neg h8, if_neg hst]
      exact (if_neg hb).trans ((if_neg he).trans (if_neg (by simp [ckVerify, ckCompute, hk])))⟩
  · exact .inl ⟨hk, by
      rw [tryDecode, if_neg h8, if_neg hst]
      exact (if_neg hb).trans ((if_neg he).trans (if_pos (by simp [ckVerify, ckCompute, hk])))⟩

/-- What an `Ok` says of the buffer: it holds the frame's bytes, and that is all it took. -/
theorem tryDecode_ok {s : List Byte} {f : Frame} {len : Nat} (h : tryDecode c s = .ok f len) :
    len = frameLen (countField s).toNat ∧ 14 ≤ len ∧ len ≤ s.length ∧
      f = { cmd := cmdField s, args := argsField s (countField s).toNat } := by
  rcases tryDecode_cases c s with ⟨_, e⟩ | ⟨_, _, e⟩ | ⟨_, _, _, ⟨_, e⟩ | ⟨_, _, e⟩ | ⟨hl, _, _, ⟨_, e⟩ | ⟨_, e⟩⟩⟩ <;>
    rw [e] at h <;> simp only [reduceCtorEq, DecodeOutcome.ok.injEq] at h
  obtain ⟨rfl, rfl⟩ := h
  exact ⟨rfl, by simp only [frameLen]; omega, hl, rfl⟩

/-- An outcome that is a corruption needs at least the 8 header bytes. -/
theorem tryDecode_corrupt_length {s : List Byte}
    (h : tryDecode c s = .badStartCode ∨ tryDecode c s = .badEndCode ∨ tryDecode c s = .checksumMismatch) :
    8 ≤ s.length := by
  rcases tryDecode_cases c s with ⟨_, e⟩ | ⟨h8, _, _⟩ | ⟨h8, _⟩
  · rw [e] at h
    simp at h
  · exact h8
  · exact h8

@[simp] theorem tryDecode_nil : tryDecode c [] = .incompleteHeader := rfl

/-- The bytes of the arguments: four each (R50). -/
@[simp] theorem argBytes_flatMap_length (args : List I32) : (args.flatMap argBytes).length = 4 * args.length := by
  induction args with
  | nil => rfl
  | cons a rest ih =>
    simp only [List.flatMap_cons, List.length_append, argBytes_length, List.length_cons, ih]
    omega

/-- The covered region of an encoded frame has `8 + 4n` bytes (R72). -/
@[simp] theorem encodeRegion_length (cmd : U16) (args : List I32) :
    (encodeRegion cmd args).length = 8 + 4 * args.length := by
  simp [encodeRegion, Nat.mul_comm]

end Sys2Proof.Machine
end

