-- ==== Sys2Proof/Laws/Assembler.lean ====
section
/-! SUPPORT. What each step of the receive side can do, said once, and what carries from the steps to `DRAIN`
and from `RX_BYTE` to `RX_CHUNK`. -/

namespace Sys2Proof.Machine

variable (c : Cfg)

/-- The three things `SYNC_STEP` can do (R110, R111, R112). -/
theorem syncStep_cases (s : State) :
    ((tryDecode c s.rxbuf = .incompleteHeader ∨ tryDecode c s.rxbuf = .incompleteBody) ∧
      syncStep c s = (.wait, s)) ∨
    (∃ f len, tryDecode c s.rxbuf = .ok f len ∧ 14 ≤ len ∧ len ≤ s.rxbuf.length ∧
      syncStep c s = (.again, (s.emit (.frame f)).dropFront len)) ∨
    (∃ k, 8 ≤ s.rxbuf.length ∧
      ((tryDecode c s.rxbuf = .badStartCode ∧ k = .badStartCode) ∨
       (tryDecode c s.rxbuf = .badEndCode ∧ k = .badEndCode) ∨
       (tryDecode c s.rxbuf = .checksumMismatch ∧ k = .checksumMismatch)) ∧
      syncStep c s = (.again, s.raiseWarn k)) := by
  cases h : tryDecode c s.rxbuf with
  | incompleteHeader => exact .inl ⟨.inl rfl, by simp [syncStep, h]⟩
  | incompleteBody => exact .inl ⟨.inr rfl, by simp [syncStep, h]⟩
  | ok f len =>
    obtain ⟨_, h14, hlen, _⟩ := tryDecode_ok c h
    exact .inr (.inl ⟨f, len, rfl, h14, hlen, by simp [syncStep, h]⟩)
  | badStartCode =>
    exact .inr (.inr ⟨.badStartCode, tryDecode_corrupt_length c (.inl h), by simp, by simp [syncStep, h]⟩)
  | badEndCode =>
    exact .inr (.inr ⟨.badEndCode, tryDecode_corrupt_length c (.inr (.inl h)), by simp, by simp [syncStep, h]⟩)
  | checksumMismatch =>
    exact .inr (.inr ⟨.checksumMismatch, tryDecode_corrupt_length c (.inr (.inr h)), by simp,
      by simp [syncStep, h]⟩)

/-- The two things `SCAN_STEP` can do (R114, R115). -/
theorem scanStep_cases (s : State) :
    (∃ i, findStart s.rxbuf = some i ∧ scanStep s = (.again, s.resumeAt i)) ∨
    (findStart s.rxbuf = none ∧
      scanStep s = (.wait, s.dropFront (s.rxbuf.length - min Config.scanKeep s.rxbuf.length))) := by
  cases h : findStart s.rxbuf with
  | some i => exact .inl ⟨i, rfl, by simp [scanStep, h]⟩
  | none => exact .inr ⟨rfl, by simp [scanStep, h]⟩

/-- What both kinds of step keep, `DRAIN` keeps. -/
theorem drainFuel_induct {P : State → Prop} (hsync : ∀ s, P s → P (syncStep c s).2)
    (hscan : ∀ s, P s → P (scanStep s).2) : ∀ (fuel : Nat) (s : State), P s → P (drainFuel c fuel s)
  | 0, _, h => h
  | fuel + 1, s, h => by
    have hstep : P (drainStep c s).2 := by
      unfold drainStep
      split
      · exact hsync s h
      · exact hscan s h
    unfold drainFuel
    split
    · rename_i he
      simpa [he] using hstep
    · rename_i he
      exact drainFuel_induct hsync hscan fuel _ (by simpa [he] using hstep)

/-- What both kinds of step keep, `DRAIN` keeps (R108). -/
theorem drain_induct {P : State → Prop} (hsync : ∀ s, P s → P (syncStep c s).2)
    (hscan : ∀ s, P s → P (scanStep s).2) (s : State) (h : P s) : P (drain c s) :=
  drainFuel_induct c hsync hscan _ s h

/-- `DRAIN` touches neither the status nor the transmit side nor what the host sees and has pending. -/
theorem drain_frame (s : State) :
    (drain c s).status = s.status ∧ (drain c s).txout = s.txout ∧
      (drain c s).results = s.results ∧ (drain c s).script = s.script := by
  refine drain_induct c (P := fun t => t.status = s.status ∧ t.txout = s.txout ∧
    t.results = s.results ∧ t.script = s.script) ?_ ?_ s ⟨rfl, rfl, rfl, rfl⟩
  · intro t h
    rcases syncStep_cases c t with ⟨_, e⟩ | ⟨f, len, _, _, _, e⟩ | ⟨k, _, _, e⟩ <;> simpa [e] using h
  · intro t h
    rcases scanStep_cases t with ⟨i, _, e⟩ | ⟨_, e⟩ <;> simpa [e] using h

@[simp] theorem drain_status (s : State) : (drain c s).status = s.status := (drain_frame c s).1
@[simp] theorem drain_txout (s : State) : (drain c s).txout = s.txout := (drain_frame c s).2.1
@[simp] theorem drain_results (s : State) : (drain c s).results = s.results := (drain_frame c s).2.2.1
@[simp] theorem drain_script (s : State) : (drain c s).script = s.script := (drain_frame c s).2.2.2

/-- `DRAIN` keeps the form of the buffer (R45). -/
theorem drain_keeps_wf {bufMax : Nat} {s : State} (h : Memory.wf bufMax s.rxbuf) :
    Memory.wf bufMax (drain c s).rxbuf := by
  refine drain_induct c (P := fun t => Memory.wf bufMax t.rxbuf) ?_ ?_ s h
  · intro t ht
    rcases syncStep_cases c t with ⟨_, e⟩ | ⟨f, len, _, _, _, e⟩ | ⟨k, _, _, e⟩
    · simpa [e] using ht
    · rw [e]
      exact dropFront_keeps_wf len (s := t.emit (.frame f)) ht
    · rw [e]
      exact raiseWarn_keeps_wf k ht
  · intro t ht
    rcases scanStep_cases t with ⟨i, _, e⟩ | ⟨_, e⟩
    · rw [e]
      exact resumeAt_keeps_wf i ht
    · rw [e]
      exact dropFront_keeps_wf _ ht

/-- The three things `RX_BYTE` can do (R105, R106, R107). -/
theorem rxByte_cases (b : Byte) (s : State) :
    (s.status ≠ .opened ∧ rxByte c b s = (.rxRefusedNotOpen, s)) ∨
    (s.status = .opened ∧ c.bufMax ≤ s.rxbuf.length ∧
      rxByte c b s = (.rxFatal, s.raiseFatal .bufferOverflow)) ∨
    (s.status = .opened ∧ s.rxbuf.length < c.bufMax ∧ rxByte c b s = (.rxDone, drain c (s.append b))) := by
  by_cases ho : s.status = .opened
  · by_cases hb : c.bufMax ≤ s.rxbuf.length
    · exact .inr (.inl ⟨ho, hb, by simp [rxByte, ho, hb]⟩)
    · exact .inr (.inr ⟨ho, by omega, by simp [rxByte, ho, hb]⟩)
  · exact .inl ⟨ho, by simp [rxByte, ho]⟩

/-- `RX_BYTE` keeps the form of the buffer (R45). -/
theorem rxByte_keeps_wf (b : Byte) {s : State} (h : Memory.wf c.bufMax s.rxbuf) :
    Memory.wf c.bufMax (rxByte c b s).2.rxbuf := by
  rcases rxByte_cases c b s with ⟨_, e⟩ | ⟨_, _, e⟩ | ⟨_, hlt, e⟩ <;> rw [e]
  · exact h
  · exact raiseFatal_keeps_wf _
  · exact drain_keeps_wf c (append_keeps_wf b hlt)

/-- What every answered `RX_BYTE` keeps, `RX_CHUNK` keeps (R119). -/
theorem rxChunk_induct {P : State → Prop} (h1 : ∀ b s, P s → P (rxByteAnswered c b s)) :
    ∀ (bytes : List Byte) (s : State), P s → P (rxChunk c bytes s)
  | [], _, h => h
  | b :: rest, s, h => by
    unfold rxChunk
    split
    · exact h1 b s h
    · exact rxChunk_induct h1 rest _ (h1 b s h)

/-- `RX_CHUNK` keeps the form of the buffer (R45). -/
theorem rxChunk_keeps_wf (bytes : List Byte) {s : State} (h : Memory.wf c.bufMax s.rxbuf) :
    Memory.wf c.bufMax (rxChunk c bytes s).rxbuf :=
  rxChunk_induct c (P := fun t => Memory.wf c.bufMax t.rxbuf)
    (fun b _ ht => rxByte_keeps_wf c b ht) bytes s h

end Sys2Proof.Machine
end

