-- ==== Sys2Proof/Laws/PerInstr.lean ====
section
/-! SUPPORT. One lemma per constructor of `Instr` for each family of LAWS.json. -/

namespace Sys2Proof.Laws.WireLength

/-- The width in bytes of a row's encoding in spec/opcode_table.json; 0 for a row with none (R63). -/
def rowBytes : Instr → Nat
  | .frameHdr _ _ => 8
  | .frameArg _ => 4
  | .frameFtr _ => 6
  | .frameN0 _ _ => 14
  | .reset => 0
  | .close => 0
  | .rxByte _ => 0
  | .txSend _ _ => 0
  | .drain => 0
  | .syncStep => 0
  | .scanStep => 0
  | .tryDecode _ => 0
  | .encode _ _ => 0
  | .ckCompute _ => 0
  | .ckVerify _ _ => 0
  | .rxChunk _ => 0
  | .rxFrame _ _ => 0

/-- An instruction with a bit encoding is written in exactly the bytes its row has (R50 to R53), and the other
rows have no encoding (R63). -/
def Statement (i : Instr) : Prop :=
  (∀ s, encode i = some s → s.length = rowBytes i) ∧ (encode i = none ↔ rowBytes i = 0)

theorem frameHdr (cmd argCount : U16) : Statement (.frameHdr cmd argCount) := ⟨by rintro _ ⟨⟩; rfl, by simp [Sys2Proof.encode, rowBytes]⟩
theorem frameArg (w : I32) : Statement (.frameArg w) := ⟨by rintro _ ⟨⟩; rfl, by simp [Sys2Proof.encode, rowBytes]⟩
theorem frameFtr (k : U16) : Statement (.frameFtr k) := ⟨by rintro _ ⟨⟩; rfl, by simp [Sys2Proof.encode, rowBytes]⟩
theorem frameN0 (cmd k : U16) : Statement (.frameN0 cmd k) := ⟨by rintro _ ⟨⟩; rfl, by simp [Sys2Proof.encode, rowBytes]⟩
theorem reset : Statement .reset := ⟨by rintro _ ⟨⟩, by simp [Sys2Proof.encode, rowBytes]⟩
theorem close : Statement .close := ⟨by rintro _ ⟨⟩, by simp [Sys2Proof.encode, rowBytes]⟩
theorem rxByte (b : Byte) : Statement (.rxByte b) := ⟨by rintro _ ⟨⟩, by simp [Sys2Proof.encode, rowBytes]⟩
theorem txSend (cmd : U16) (args : List I32) : Statement (.txSend cmd args) := ⟨by rintro _ ⟨⟩, by simp [Sys2Proof.encode, rowBytes]⟩
theorem drain : Statement .drain := ⟨by rintro _ ⟨⟩, by simp [Sys2Proof.encode, rowBytes]⟩
theorem syncStep : Statement .syncStep := ⟨by rintro _ ⟨⟩, by simp [Sys2Proof.encode, rowBytes]⟩
theorem scanStep : Statement .scanStep := ⟨by rintro _ ⟨⟩, by simp [Sys2Proof.encode, rowBytes]⟩
theorem tryDecode (buffer : List Byte) : Statement (.tryDecode buffer) := ⟨by rintro _ ⟨⟩, by simp [Sys2Proof.encode, rowBytes]⟩
theorem encode (cmd : U16) (args : List I32) : Statement (.encode cmd args) := ⟨by rintro _ ⟨⟩, by simp [Sys2Proof.encode, rowBytes]⟩
theorem ckCompute (bytes : List Byte) : Statement (.ckCompute bytes) := ⟨by rintro _ ⟨⟩, by simp [Sys2Proof.encode, rowBytes]⟩
theorem ckVerify (bytes : List Byte) (expected : U16) : Statement (.ckVerify bytes expected) := ⟨by rintro _ ⟨⟩, by simp [Sys2Proof.encode, rowBytes]⟩
theorem rxChunk (bytes : List Byte) : Statement (.rxChunk bytes) := ⟨by rintro _ ⟨⟩, by simp [Sys2Proof.encode, rowBytes]⟩
theorem rxFrame (cmd : U16) (args : List I32) : Statement (.rxFrame cmd args) := ⟨by rintro _ ⟨⟩, by simp [Sys2Proof.encode, rowBytes]⟩

end Sys2Proof.Laws.WireLength
end

