-- ==== Sys2Proof/Tests/Slice0.lean ====
section
/-! SUPPORT. Tests: expected values are those of spec/95_test_vectors.md (named T<n> and P<n>) or words written
out from spec/30_encoding.md; then, for each statement with hypotheses, a witness that something meets them. -/

namespace Sys2Proof.Tests

open Sys2Proof.Machine

/-! ### Well-formedness: the one check, and an ill-formed term it refuses -/

theorem test_encode_of_65536_args_is_ill_formed :
    (Instr.encode 1 (List.replicate 65536 0)).wellFormed = false := by
  simp [Instr.wellFormed, argsInDomain, Config.maxArgs, -List.reduceReplicate]

theorem test_rxFrame_of_65536_args_is_ill_formed :
    (Instr.rxFrame 1 (List.replicate 65536 0)).wellFormed = false := by
  simp [Instr.wellFormed, argsInDomain, Config.maxArgs, -List.reduceReplicate]

theorem test_encode_of_65535_args_is_well_formed :
    (Instr.encode 1 (List.replicate 65535 0)).wellFormed = true := by
  simp [Instr.wellFormed, argsInDomain, Config.maxArgs, -List.reduceReplicate]

theorem test_txSend_of_65536_args_is_well_formed :
    (Instr.txSend 1 (List.replicate 65536 0)).wellFormed = true := rfl

/-! ### Decoding: words written out from R50 to R53, most significant byte first (R33) -/

theorem test_decode_frameHdr :
    decode [0xEB, 0x90, 0x5B, 0x6A, 0x33, 0x44, 0x00, 0x03] = .ok (.frameHdr 0x3344 3) := rfl

theorem test_decode_frameArg : decode [0xFF, 0xF6, 0x04, 0x0F] = .ok (.frameArg (-654321)) := rfl

theorem test_decode_frameFtr :
    decode [0x18, 0x1E, 0xC5, 0xA4, 0xD2, 0x79] = .ok (.frameFtr 0x181E) := rfl

theorem test_decode_frameN0 :
    decode [0xEB, 0x90, 0x5B, 0x6A, 0x00, 0x01, 0x00, 0x00, 0xD0, 0x5E, 0xC5, 0xA4, 0xD2, 0x79] =
      .ok (.frameN0 1 0xD05E) := rfl

theorem test_decode_refuses_start_code :
    decode [0xEB, 0x90, 0x5B, 0x6B, 0x00, 0x01, 0x00, 0x00] = .error .badStartCode := rfl

theorem test_decode_refuses_end_code :
    decode [0xD0, 0x5E, 0xC5, 0xA4, 0xD2, 0x86] = .error .badEndCode := rfl

theorem test_decode_refuses_length : decode [0xEB, 0x90, 0x5B] = .error .noRowOfThisLength := rfl

theorem test_table_word_frameHdr : decodeTableWord 64 0xEB905B6A33440003 = some (.frameHdr 0x3344 3) := by
  decide +kernel

theorem test_table_word_frameArg : decodeTableWord 32 0xFFF6040F = some (.frameArg (-654321)) := by
  decide +kernel

theorem test_table_word_frameFtr : decodeTableWord 48 0x181EC5A4D279 = some (.frameFtr 0x181E) := by
  decide +kernel

theorem test_table_word_frameN0 :
    decodeTableWord 112 0xEB905B6A00010000D05EC5A4D279 = some (.frameN0 1 0xD05E) := by
  decide +kernel

theorem test_step_runs_the_table_word :
    step (State.reset.withFetchWord 64 0xEB905B6A33440003) = exec (.frameHdr 0x3344 3) State.reset := rfl

/-- The operations have no bit encoding (R63): each is its own line. -/
theorem test_fetch_txSend : fetch (.txSend 1 [7]) = .txSend 1 [7] := rfl

/-! ### The vectors of spec/95_test_vectors.md, under `CKSUM_REF` -/

/-- The configuration of a vector: its `BUF_MAX`, and `CKSUM_REF`. -/
def refCfg (bufMax : Nat) : Cfg := { bufMax := bufMax, cksum := cksumRef }

/-- Frame `A`. -/
def frameA : List Byte :=
  [0xEB, 0x90, 0x5B, 0x6A, 0x33, 0x44, 0x00, 0x03, 0x00, 0x01, 0xE2, 0x40, 0xFF, 0xF6, 0x04, 0x0F,
   0x00, 0x0C, 0x0A, 0x14, 0x18, 0x1E, 0xC5, 0xA4, 0xD2, 0x79]

/-- Frame `Z`. -/
def frameZ : List Byte :=
  [0xEB, 0x90, 0x5B, 0x6A, 0x00, 0x01, 0x00, 0x00, 0xD0, 0x5E, 0xC5, 0xA4, 0xD2, 0x79]

/-- What the vectors show of a state: mode, status, `RXBASE`, `RXBUF`. -/
def shown (s : State) : RxMode × Status × Nat × List Byte := (s.rxmode, s.status, s.rxbase, s.rxbuf)

/-- T1, T2. -/
theorem test_T1_encode : encodeFrame (refCfg 64) 0x3344 [123456, -654321, 789012] = frameA := by
  decide +kernel

/-- T10 p. -/
theorem test_T2_decode :
    tryDecode (refCfg 64) frameA = .ok { cmd := 0x3344, args := [123456, -654321, 789012] } 26 := by
  decide +kernel

/-- T6: the check value of `CKSUM_REF`. -/
theorem test_T6_check :
    cksumRef [0x31, 0x32, 0x33, 0x34, 0x35, 0x36, 0x37, 0x38, 0x39] = 0x29B1 := by
  decide +kernel

/-- T6b: the sum of the bytes. -/
theorem test_T6b_sum : cksumSum (frameA.take 20) = 0x060F := by decide +kernel

/-- T6b: CRC-16/KERMIT, both reflections. -/
theorem test_T6b_kermit : crc16 ⟨0x1021, 0, true, true, 0⟩ (frameA.take 20) = 0xD7CA := by
  decide +kernel

/-- T6: `CK_VERIFY` on the region of `Z`. -/
theorem test_T6_verify :
    ckVerify (refCfg 64) (frameZ.take 8) 0xD05E = true ∧ ckVerify (refCfg 64) (frameZ.take 8) 0xD05F = false := by
  decide +kernel

/-- T8. -/
theorem test_T8_corner_arguments :
    encodeFrame (refCfg 64) 0xFFFF [-1, -2147483648, 2147483647, 0] =
      [0xEB, 0x90, 0x5B, 0x6A, 0xFF, 0xFF, 0x00, 0x04, 0xFF, 0xFF, 0xFF, 0xFF, 0x80, 0x00, 0x00, 0x00,
       0x7F, 0xFF, 0xFF, 0xFF, 0x00, 0x00, 0x00, 0x00, 0xF2, 0xBF, 0xC5, 0xA4, 0xD2, 0x79] := by
  decide +kernel

/-- T9, first row. -/
theorem test_T9_send :
    (txSend (refCfg 64) 0x3345 [0] State.reset).2.txout =
      [0xEB, 0x90, 0x5B, 0x6A, 0x33, 0x45, 0x00, 0x01, 0x00, 0x00, 0x00, 0x00, 0xD5, 0x1E,
       0xC5, 0xA4, 0xD2, 0x79] ∧
    (txSend (refCfg 64) 0x3345 [0] State.reset).1 = .txDone 18 := by
  decide +kernel

/-- T10 m: checksum and end code wrong. -/
theorem test_T10_end_code_before_checksum :
    tryDecode (refCfg 64) [0xEB, 0x90, 0x5B, 0x6A, 0, 1, 0, 0, 0xD1, 0x5E, 0xC5, 0xA4, 0xD2, 0x86] =
      .badEndCode := by
  decide +kernel

/-- T10 o: the length arithmetic does not wrap. -/
theorem test_T10_longest_arg_count :
    tryDecode (refCfg 64) [0xEB, 0x90, 0x5B, 0x6A, 0x00, 0x01, 0xFF, 0xFF] = .incompleteBody := by
  decide +kernel

/-- T12 (b): a corrupted checksum field behind a good frame. -/
theorem test_T12_resynchronization :
    shown (rxChunk (refCfg 64) (frameA ++ [0xEB, 0x90, 0x5B, 0x6A, 1, 2, 0, 1, 0, 0, 0, 7, 0x57, 0x2B,
      0xC5, 0xA4, 0xD2, 0x79]) State.reset) = (.scanning, .opened, 41, [0xA4, 0xD2, 0x79]) := by
  decide +kernel

/-- T13, the boundary: with `BUF_MAX` 26 frame `A` arrives, with 25 it overflows. -/
theorem test_T13_capacity :
    (rxChunk (refCfg 26) frameA State.reset).rxev =
      [.frame { cmd := 0x3344, args := [123456, -654321, 789012] }] ∧
    (rxChunk (refCfg 25) frameA State.reset).rxev = [.fatal .bufferOverflow] := by
  decide +kernel

/-- T14: a start code arriving in pieces while scanning. -/
theorem test_T14_start_code_in_pieces :
    (rxChunk (refCfg 64) (List.replicate 8 0xFF ++ frameZ) State.reset).rxev =
      [.warn .badStartCode, .frame { cmd := 1, args := [] }] := by
  decide +kernel

/-- T14: one scan step on the eight bytes' remainder keeps three. -/
theorem test_T14_scan_keeps_three :
    (scanStep { State.reset with rxmode := .scanning, rxbase := 1, rxbuf := List.replicate 7 0xFF }).2.rxbuf =
      [0xFF, 0xFF, 0xFF] := by
  decide +kernel

/-- T16 (b): a nested rejection. -/
theorem test_T16_nested_rejection :
    (rxChunk (refCfg 64) [0xEB, 0x90, 0x5B, 0x6A, 0, 7, 0, 3, 0xEB, 0x90, 0x5B, 0x6A, 0, 5, 0, 0,
      0x11, 0x22, 0x33, 0x44, 0x6E, 0x2D, 0xC5, 0xA4, 0xD2, 0x78] State.reset).rxev =
      [.warn .badEndCode, .warn .badEndCode] := by
  decide +kernel

/-- T22: the eighth byte of garbage, by one synchronized step. -/
theorem test_T22_sync_step :
    (syncStep (refCfg 64) { State.reset with rxbuf := [0, 0x11, 0x22, 0x33, 0x44, 0x55, 0x66, 0x77] }).2.rxev =
      [.warn .badStartCode] := by
  decide +kernel

/-- T22, drained: `SCANNING / OPEN / 5 / 55 66 77`. -/
theorem test_T22_drain :
    shown (drain (refCfg 64) { State.reset with rxbuf := [0, 0x11, 0x22, 0x33, 0x44, 0x55, 0x66, 0x77] }) =
      (.scanning, .opened, 5, [0x55, 0x66, 0x77]) := by
  decide +kernel

/-- T23: `CLOSE` with bytes pending. -/
theorem test_T23_close :
    shown (closeConnection { State.reset with rxbuf := [0xEB, 0x90, 0x5B, 0x6A, 0, 1, 0, 0] }) =
      (.synchronized, .closed, 0, []) := by
  decide +kernel

/-- P3: `RESET` after a fatal entry. -/
theorem test_P3_reset_after_fatal :
    shown (State.reset.raiseFatal .bufferOverflow).restart = (.synchronized, .opened, 0, []) := rfl


/-! ### Something meets the hypotheses of every statement

`witness_<Name>` is for `Obligations.<Name>`; a statement without hypotheses has none. -/

/-- A fatal instance, as its entry leaves it (R151). -/
def fatalState : State := { State.reset with status := .fatal, rxev := [.fatal .bufferOverflow] }

/-- An open instance whose buffer is full. -/
def fullState : State := { State.reset with rxbuf := List.replicate Config.cfg.bufMax 0 }

/-- An open instance that holds `bytes`. -/
def holding (bytes : List Byte) : State := { State.reset with rxbuf := bytes }

/-- An open instance that scans and holds `bytes`. -/
def scanningWith (bytes : List Byte) : State := { State.reset with rxbuf := bytes, rxmode := .scanning }

/-- The bytes of a frame with command 1, no argument and the checksum field `k`. -/
def emptyFrame (k : U16) : List Byte := headerBytes 1 0 ++ footerBytes k

/-- The checksum of its covered region. -/
def goodSum : U16 := Config.cfg.cksum (headerBytes 1 0)

theorem room : 14 ≤ Config.cfg.bufMax := Nat.le_add_left _ _

theorem checksum_of_emptyFrame (k : U16) : checksumField (emptyFrame k) 0 = k := by
  have h1 : be16 (headerBytes 1 0 ++ footerBytes k) (8 + 0) = be16 (footerBytes k) 0 :=
    be16_append_right (headerBytes 1 0) _ 0
  have h2 : be16 (bytes16 k ++ (bytes16 Config.end1 ++ bytes16 Config.end2)) 0 = be16 (bytes16 k) 0 :=
    be16_append_left (by simp)
  simpa [checksumField, emptyFrame, footerBytes] using h1.trans h2

theorem decode_emptyFrame (k : U16) : tryDecode Config.cfg (emptyFrame k) =
    if goodSum = k then .ok { cmd := 1, args := [] } 14 else .checksumMismatch := by
  have hn : (countField (emptyFrame k)).toNat = 0 := by
    rw [show countField (emptyFrame k) = countField (headerBytes 1 0) from
      be16_append_left (s := headerBytes 1 0) (o := 6) (by simp)]
    decide
  have hl : (emptyFrame k).length = 14 := rfl
  have hs1 : startCode1 (emptyFrame k) = Config.start1 :=
    (be16_append_left (s := headerBytes 1 0) (o := 0) (by simp)).trans (by decide)
  have hs2 : startCode2 (emptyFrame k) = Config.start2 :=
    (be16_append_left (s := headerBytes 1 0) (o := 2) (by simp)).trans (by decide)
  have he1 : endCode1 (emptyFrame k) 0 = Config.end1 :=
    (be16_append_right (headerBytes 1 0 ++ bytes16 k) (bytes16 Config.end1 ++ bytes16 Config.end2) 0).trans
      (by decide)
  have he2 : endCode2 (emptyFrame k) 0 = Config.end2 :=
    (be16_append_right (headerBytes 1 0 ++ bytes16 k) (bytes16 Config.end1 ++ bytes16 Config.end2) 2).trans
      (by decide)
  have hr : coveredRegion (emptyFrame k) 0 = headerBytes 1 0 := rfl
  have hc : cmdField (emptyFrame k) = 1 :=
    (be16_append_left (s := headerBytes 1 0) (o := 4) (by simp)).trans (by decide)
  by_cases hk : goodSum = k <;> (
    simp [tryDecode, hn, hl, hs1, hs2, he1, he2, hr, hc, checksum_of_emptyFrame, ckVerify, ckCompute,
      frameLen, argsField, hk]; exact hk)

theorem decode_goodFrame :
    tryDecode Config.cfg (emptyFrame goodSum) = .ok { cmd := 1, args := [] } 14 := by
  rw [decode_emptyFrame, if_pos rfl]

theorem decode_wrongSum : tryDecode Config.cfg (emptyFrame (goodSum + 1)) = .checksumMismatch := by
  rw [decode_emptyFrame, if_neg]
  simp

theorem no_start_in {s : List Byte} (h : findStart s = none) : ¬ containsStart s :=
  fun ⟨i, hi⟩ => findStart_none h i hi

theorem fatalState_quiescent : Quiescent Config.cfg fatalState :=
  ⟨fun h => absurd h (by decide), fun _ => ⟨rfl, rfl⟩⟩

theorem reset_quiescent : Quiescent Config.cfg State.reset :=
  ⟨fun _ => ⟨Nat.zero_le _, fun _ => .inl rfl, fun h => absurd h (by decide)⟩, fun h => absurd rfl h⟩

/-- Both clauses: an open instance, a fatal one. -/
theorem witness_CloseReleasesAnOpenInstanceOnly :
    State.reset.status = .opened ∧ fatalState.status ≠ .opened := by decide

theorem witness_DeadInstanceStaysDeadUntilReset :
    Quiescent Config.cfg fatalState ∧ fatalState.status ≠ .opened ∧ Instr.rxByte 0 ≠ .reset ∧
      ∃ t, exec (.rxByte 0) fatalState = .next t :=
  ⟨fatalState_quiescent, by decide, by decide, _, rfl⟩

/-- The three ways a status changes: an overflow, `CLOSE`, `RESET`. -/
theorem witness_StatusChangesOnlyByOverflowCloseAndReset :
    (∃ t, exec (.rxByte 0) fullState = .next t ∧ t.status = .fatal ∧ fullState.status ≠ .fatal) ∧
    (∃ t, exec .close State.reset = .next t ∧ t.status = .closed ∧ State.reset.status ≠ .closed) ∧
    (∃ t, exec .reset fatalState = .next t ∧ t.status = .opened ∧ fatalState.status ≠ .opened) := by
  refine ⟨⟨_, rfl, ?_, by decide⟩, ⟨_, rfl, by decide, by decide⟩, ⟨_, rfl, by decide, by decide⟩⟩
  simp [rxByteAnswered, rxByte, fullState, State.reset]

theorem witness_ReceivedByteIsRefusedUnlessOpen : fatalState.status ≠ .opened := by decide

theorem witness_ReceivedByteAtFullBufferIsFatal :
    fullState.status = .opened ∧ fullState.rxbuf.length = Config.cfg.bufMax :=
  ⟨rfl, List.length_replicate⟩

/-- Room at the boundary: one byte below `BUF_MAX`. -/
theorem witness_ReceivedByteIsAppendedThenDrained :
    (holding (List.replicate (Config.cfg.bufMax - 1) 0)).status = .opened ∧
      (holding (List.replicate (Config.cfg.bufMax - 1) 0)).rxbuf.length < Config.cfg.bufMax := by
  refine ⟨rfl, ?_⟩
  have := room
  simp only [holding, List.length_replicate]
  omega

/-- The first clause with a header and five more bytes held, the second with its six bytes. -/
theorem witness_ByteOfAnUnfinishedFrameIsHeld :
    ((holding ((emptyFrame 0).take 12)).rxbuf.length < Config.cfg.bufMax ∧
      (tryDecode Config.cfg ((holding ((emptyFrame 0).take 12)).rxbuf ++ [0xD2])).incomplete) ∧
    (holding [0, 0, 0, 0, 0, 0]).rxbuf.length ≤ 6 :=
  ⟨⟨Nat.lt_of_lt_of_le (by decide) room, .inr rfl⟩, by decide⟩

/-- The good frame, and the three corruptions. -/
theorem witness_ByteThatSettlesTheFrontReportsItFirst :
    (holding ((emptyFrame goodSum).take 13)).rxbuf.length < Config.cfg.bufMax ∧
    tryDecode Config.cfg ((holding ((emptyFrame goodSum).take 13)).rxbuf ++ [0x79]) =
      .ok { cmd := 1, args := [] } 14 ∧
    tryDecode Config.cfg ((holding [0, 0, 0, 0, 0, 0, 0]).rxbuf ++ [0]) = .badStartCode ∧
    tryDecode Config.cfg ((holding ((emptyFrame 0).take 13)).rxbuf ++ [0x78]) = .badEndCode ∧
    tryDecode Config.cfg ((holding ((emptyFrame (goodSum + 1)).take 13)).rxbuf ++ [0x79]) =
      .checksumMismatch :=
  ⟨Nat.lt_of_lt_of_le (by decide) room, decode_goodFrame, rfl, rfl, decode_wrongSum⟩

theorem witness_ReceivedBytesStayInStreamOrder :
    State.reset.status = .opened ∧ State.reset.rxbuf.length < Config.cfg.bufMax :=
  ⟨rfl, Nat.lt_of_lt_of_le (by decide) room⟩

/-- The shortest frame fits every `BUF_MAX`; its last proper prefix. -/
theorem witness_FrameArrivingAtAnEmptyBufferIsDeliveredOnce :
    State.reset.status = .opened ∧ State.reset.rxmode = .synchronized ∧ State.reset.rxbuf = [] ∧
      ([] : List I32).length ≤ 65535 ∧ 14 + 4 * ([] : List I32).length ≤ Config.cfg.bufMax ∧
      13 < 14 + 4 * ([] : List I32).length :=
  ⟨rfl, rfl, rfl, by decide, room, by decide⟩

theorem witness_FrameLongerThanTheCapOverflows :
    State.reset.status = .opened ∧ State.reset.rxmode = .synchronized ∧ State.reset.rxbuf = [] ∧
      ([0] : List I32).length ≤ 65535 ∧ (refCfg 17).bufMax < 14 + 4 * ([0] : List I32).length := by
  decide

/-- Two bytes of a start code held, and a byte that does not continue it. -/
theorem witness_GarbageWithoutStartCodeIsSwallowed :
    Quiescent Config.cfg (scanningWith [0xEB, 0x90]) ∧ (scanningWith [0xEB, 0x90]).status = .opened ∧
      (scanningWith [0xEB, 0x90]).rxmode = .scanning ∧
      ¬ containsStart ((scanningWith [0xEB, 0x90]).rxbuf ++ [0x5B, 0x6B]) :=
  ⟨⟨fun _ => ⟨Nat.le_trans (by decide) room, fun h => absurd h (by decide),
      fun _ => ⟨by decide, no_start_in rfl⟩⟩, fun h => absurd rfl h⟩, rfl, rfl, no_start_in rfl⟩

theorem witness_SyncStepEmitsAWholeFrame :
    ([] : List I32).length ≤ 65535 ∧
      (holding (encodeFrame Config.cfg 1 [] ++ [0xEB])).rxbuf = encodeFrame Config.cfg 1 [] ++ [0xEB] :=
  ⟨by decide, rfl⟩

/-- Seven and eight bytes, and each corruption. -/
theorem witness_SyncStepWaitsOrEntersScanning :
    (tryDecode Config.cfg (holding [0, 0, 0, 0, 0, 0, 0]).rxbuf).incomplete ∧
    tryDecode Config.cfg (holding [0, 0, 0, 0, 0, 0, 0, 0]).rxbuf = .badStartCode ∧
    tryDecode Config.cfg (holding ((emptyFrame 0).take 13 ++ [0])).rxbuf = .badEndCode ∧
    tryDecode Config.cfg (holding (emptyFrame (goodSum + 1))).rxbuf = .checksumMismatch :=
  ⟨.inl rfl, rfl, rfl, decode_wrongSum⟩

/-- With nothing before `START`, and with three of its bytes before it. -/
theorem witness_ScanStepResumesAtTheFirstStartCode :
    (holding (Config.startBytes ++ [7])).rxbuf = [] ++ Config.startBytes ++ [7] ∧
    (holding ([0xEB, 0x90, 0x5B] ++ Config.startBytes)).rxbuf =
      [0xEB, 0x90, 0x5B] ++ Config.startBytes ++ [] ∧
    ∀ j < ([0xEB, 0x90, 0x5B] : List Byte).length,
      ¬ Config.startBytes <+: (holding ([0xEB, 0x90, 0x5B] ++ Config.startBytes)).rxbuf.drop j := by
  decide

/-- Fewer than three bytes, three, and four. -/
theorem witness_ScanStepKeepsThreeBytesWithoutAStartCode :
    ¬ containsStart (holding []).rxbuf ∧ ¬ containsStart (holding [0xEB, 0x90, 0x5B]).rxbuf ∧
      ¬ containsStart (holding [0xEB, 0x90, 0x5B, 0x6B]).rxbuf :=
  ⟨no_start_in rfl, no_start_in rfl, no_start_in rfl⟩

theorem witness_ScanCandidateNeverHasABadStartCode :
    findStart (holding ([0xEB] ++ Config.startBytes)).rxbuf = some 1 := by decide

/-- A step, and an internal function run alone. -/
theorem witness_QuiescenceIsKeptByEveryStep :
    Quiescent Config.cfg State.reset ∧ step State.reset = .next State.reset ∧
      ∃ t, exec .scanStep State.reset = .next t := ⟨reset_quiescent, rfl, _, rfl⟩

/-- The host has put `RX_BYTE(0xEB)` before an instance that has read nothing. -/
def oneBytePending : State := { State.reset with script := [.rxByte 0xEB] }

/-- A step that receives a byte. -/
theorem witness_ReadingOfTheStreamIsKeptByEveryStep :
    ReadsAStream Config.cfg oneBytePending ∧ ∃ t, step oneBytePending = .next t :=
  ⟨fun _ => ⟨[], rfl, rfl, fun _ => rfl, fun h => absurd h (by decide), rfl⟩, _, rfl⟩

/-- A step, and the host's action on the second of two instances. -/
theorem witness_StepChangesTheStateByOperationsAlone :
    (∃ t, step oneBytePending = .next t) ∧ [fatalState, State.reset][1]? = some State.reset ∧
      ∃ sys', System.perform [fatalState, State.reset] 1 (.rxByte 0xEB) = .next sys' :=
  ⟨⟨_, rfl⟩, rfl, _, rfl⟩

/-- Two reads of one byte each from reset. -/
theorem witness_ReceptionDoesNotDependOnHowTheStreamIsCut :
    Quiescent Config.cfg State.reset ∧
      ∃ t, exec (.rxChunk ([0xEB] ++ [0x90])) State.reset = .next t ∧ t.status = .opened := by
  refine ⟨reset_quiescent, _, rfl, ?_⟩
  have h0 : ¬ Config.cfg.bufMax ≤ 0 := fun h => absurd (Nat.le_trans room h) (by decide)
  have h1 : ¬ Config.cfg.bufMax ≤ 1 := fun h => absurd (Nat.le_trans room h) (by decide)
  have e : rxByte Config.cfg 0xEB State.reset = (.rxDone, holding [0xEB]) := by
    rw [rxByte, if_neg (by decide)]
    exact if_neg h0
  have e2 : rxByte Config.cfg 0x90 ((holding [0xEB]).answer (.rx .rxDone)) =
      (.rxDone, drain Config.cfg (((holding [0xEB]).answer (.rx .rxDone)).append 0x90)) := by
    rw [rxByte, if_neg (by decide)]
    exact if_neg h1
  rw [List.singleton_append, rxChunk, rxByteAnswered, e, if_neg (by simp), rxChunk, rxByteAnswered, e2,
    if_neg (by simp)]
  rfl

theorem witness_ReceptionIsTheReadingOfTheStream :
    ∃ t, exec (.rxChunk ([0xEB] ++ [0x90])) State.reset = .next t ∧ t.status = .opened :=
  witness_ReceptionDoesNotDependOnHowTheStreamIsCut.2

/-- A byte that delivers a frame. -/
theorem witness_EveryDeliveredFrameStoodWholeInTheReceivedBytes :
    Instr.rxByte 0x79 ≠ .reset ∧
      ∃ t, exec (.rxByte 0x79) (holding ((emptyFrame goodSum).take 13)) = .next t ∧
        t.rxev = [.frame { cmd := 1, args := [] }] := by
  refine ⟨by decide, _, rfl, ?_⟩
  have h : ¬ Config.cfg.bufMax ≤ 13 := fun h => absurd (Nat.le_trans room h) (by decide)
  have hs : (rxByte Config.cfg 0x79 (holding ((emptyFrame goodSum).take 13))).2 =
      drain Config.cfg (holding (emptyFrame goodSum)) := by
    have : ((emptyFrame goodSum).take 13).length = 13 := rfl
    simp only [rxByte, holding, this, State.reset, ne_eq, not_true_eq_false, if_false, h]
    rfl
  have hd : drainStep Config.cfg (holding (emptyFrame goodSum)) =
      (.again, ((holding (emptyFrame goodSum)).emit (.frame { cmd := 1, args := [] })).dropFront 14) := by
    simp [drainStep, holding, State.reset, syncStep, decode_goodFrame]
  have hr : drain Config.cfg (holding (emptyFrame goodSum)) =
      drainFuel Config.cfg 30 (holding (emptyFrame goodSum)) := rfl
  simp only [rxByteAnswered, State.answer_rxev, hs]
  rw [hr, drainFuel, hd]
  rfl

/-- The longest frame, and an open state. -/
theorem witness_EventsAppearOnOnePortWithTheirCode :
    (Frame.mk 1 (List.replicate 65535 0)).args.length ≤ 65535 ∧ State.reset.status = .opened :=
  ⟨by rw [List.length_replicate], rfl⟩

/-- A definitive outcome that is `BadStartCode`, one that is not, and a transient one. -/
theorem witness_DefinitiveOutcomeIsStableUnderExtension :
    tryDecode Config.cfg [0, 0, 0, 0, 0, 0, 0, 0] = .badStartCode ∧
    (tryDecode Config.cfg (emptyFrame goodSum)).definitive = true ∧
    tryDecode Config.cfg (emptyFrame goodSum) ≠ .badStartCode ∧
    (tryDecode Config.cfg ((emptyFrame goodSum).take 13)).definitive = false :=
  ⟨rfl, by rw [decode_goodFrame]; rfl, by rw [decode_goodFrame]; simp, rfl⟩

/-- The law holds of something; each field at a boundary offset of a frame with one argument; and an arg_count
that a flip makes larger, and one that a flip makes smaller. -/
theorem witness_OneFlippedBitByField :
    SingleBitLaw (Cfg.mk 14 cksumSum).cksum ∧ ([0] : List I32).length ≤ 65535 ∧ 7 < 8 ∧
    3 < 4 ∧ (4 ≤ 5 ∧ 5 < 6) ∧ (8 ≤ 11 ∧ 11 < 8 + 4 * ([0] : List I32).length) ∧
    ([0] : List I32).length < (be16 (flipBit (encodeFrame ⟨14, cksumSum⟩ 1 [0]) 6 7) 6).toNat ∧
    (be16 (flipBit (encodeFrame ⟨14, cksumSum⟩ 1 [0]) 7 0) 6).toNat < ([0] : List I32).length ∧
    (8 + 4 * ([0] : List I32).length ≤ 12 ∧ 12 < 10 + 4 * ([0] : List I32).length) ∧
    (10 + 4 * ([0] : List I32).length ≤ 17 ∧ 17 < 14 + 4 * ([0] : List I32).length) :=
  ⟨cksumSum_law, by decide +kernel⟩

/-- The shortest and the longest argument list. -/
theorem witness_EncodedFrameDecodesToItself :
    ([] : List I32).length ≤ 65535 ∧ (List.replicate 65535 (0 : I32)).length ≤ 65535 ∧
      encodeFrame Config.cfg 1 [] = encodeFrame Config.cfg 1 [] :=
  ⟨by decide, by rw [List.length_replicate], rfl⟩

theorem witness_EncodedFrameHasFourteenPlusFourBytesPerArgument :
    ([] : List I32).length = 0 ∧ (List.replicate 65535 (0 : I32)).length = 65535 :=
  ⟨rfl, List.length_replicate⟩

theorem witness_EncodedFrameHasEveryFieldAtItsOffset :
    ([7] : List I32).length ≤ 65535 ∧ 0 < ([7] : List I32).length := by decide

theorem witness_EncodeReturnsTheBytesOfTheFrame :
    (List.replicate 65535 (0 : I32)).length ≤ 65535 := by rw [List.length_replicate]

/-- Each clause: open with the longest argument list, fatal, open with one argument more. -/
theorem witness_SendAppendsOneWholeFrameOrIsRefused :
    State.reset.status = .opened ∧ (List.replicate 65535 (0 : I32)).length ≤ 65535 ∧
      fatalState.status ≠ .opened ∧ 65535 < (List.replicate 65536 (0 : I32)).length :=
  ⟨rfl, by rw [List.length_replicate], by decide, by rw [List.length_replicate]; decide⟩

theorem witness_TransmitStreamStaysWholeFrames :
    WholeFrames Config.cfg ({ State.reset with script := [.txSend 1 []] } : State).txout ∧
      ∃ t, step { State.reset with script := [.txSend 1 []] } = .next t :=
  ⟨⟨[], by simp, rfl⟩, _, rfl⟩

/-- One operation of each side. -/
theorem witness_DirectionsDoNotInterfere :
    (∀ i ∈ [Instr.txSend 1 [], .rxByte 0xEB], i.isRxByte = true ∨ i.isTxSend = true) ∧
      ∃ t, execAll [Instr.txSend 1 [], .rxByte 0xEB] State.reset = .next t ∧ t.status = .opened := by
  refine ⟨by decide, _, rfl, ?_⟩
  have h0 : ¬ Config.cfg.bufMax ≤ 0 := fun h => absurd (Nat.le_trans room h) (by decide)
  simp [rxByteAnswered, rxByte, h0, State.reset, txSend, State.answer, State.send]

theorem witness_CrcWithOddPolynomialDetectsOneFlippedBit : crcRefParams.poly.getLsbD 0 = true := by
  decide

/-- Words that the masks accept and words that they refuse. -/
theorem witness_HeaderAndFooterAreRecognisedByTheirMasks :
    (headerBytes 1 0).length = 8 ∧ decode (headerBytes 1 0) = .ok (.frameHdr 1 0) ∧
      ([0xEB, 0x90, 0x5B, 0x6B, 0, 1, 0, 0] : List Byte).length = 8 ∧
      (footerBytes 1).length = 6 ∧ decode (footerBytes 1) = .ok (.frameFtr 1) ∧
      ([0, 1, 0xC5, 0xA4, 0xD2, 0x78] : List Byte).length = 6 := ⟨rfl, rfl, rfl, rfl, rfl, rfl⟩

theorem witness_SixteenBitFieldsAreBigEndian : 0 + 1 < ([0xEB, 0x90] : List Byte).length := by decide

theorem witness_HeaderWordIsHeldAtAnEmptyBuffer :
    State.reset.status = .opened ∧ State.reset.rxmode = .synchronized ∧ State.reset.rxbuf = [] :=
  ⟨rfl, rfl, rfl⟩

/-- The first of two arguments: 12 bytes fit every `BUF_MAX`. -/
theorem witness_ArgumentWordIsHeldInsideABody :
    (holding (headerBytes 1 2)).rxbuf = headerBytes 1 2 ++ ([] : List I32).flatMap bytes32 ∧
      ([] : List I32).length < (2 : U16).toNat ∧
      8 + 4 * ([] : List I32).length + 4 ≤ Config.cfg.bufMax :=
  ⟨rfl, by decide, Nat.le_trans (by decide) room⟩

/-- Both clauses: the right checksum and a wrong one. -/
theorem witness_FooterWordCompletesTheFrame :
    (holding (encodeRegion 1 [])).rxbuf = encodeRegion 1 [] ∧ ([] : List I32).length ≤ 65535 ∧
      14 + 4 * ([] : List I32).length ≤ Config.cfg.bufMax ∧
      goodSum = Config.cfg.cksum (holding (encodeRegion 1 [])).rxbuf ∧
      goodSum + 1 ≠ Config.cfg.cksum (holding (encodeRegion 1 [])).rxbuf :=
  ⟨rfl, by decide, room, rfl, by change goodSum + 1 ≠ goodSum; simp⟩

theorem witness_EmptyFrameWordIsDeliveredOrRejected :
    goodSum = Config.cfg.cksum (headerBytes 1 0) ∧ goodSum + 1 ≠ Config.cfg.cksum (headerBytes 1 0) :=
  ⟨rfl, by change goodSum + 1 ≠ goodSum; simp⟩

theorem witness_ExactlyTheWellFormedInstructionsRun :
    Instr.reset.wellFormed = true ∧ (Instr.encode 1 (List.replicate 65536 0)).wellFormed = false :=
  ⟨rfl, test_encode_of_65536_args_is_ill_formed⟩

/-- `TX_SEND`, the pure functions, and an instruction that is neither `TX_SEND` nor `RESET`. -/
theorem witness_EachSideLeavesTheOtherUnchanged :
    (∃ t, exec (.txSend 1 []) State.reset = .next t) ∧ (∃ t, exec (.tryDecode []) State.reset = .next t) ∧
      (∃ t, exec (.encode 1 []) State.reset = .next t) ∧ (∃ t, exec (.ckCompute []) State.reset = .next t) ∧
      (∃ t, exec (.ckVerify [] 0) State.reset = .next t) ∧ (∃ t, exec (.rxByte 0) State.reset = .next t) :=
  ⟨⟨_, rfl⟩, ⟨_, rfl⟩, ⟨_, rfl⟩, ⟨_, rfl⟩, ⟨_, rfl⟩, ⟨_, rfl⟩⟩

/-- A scan that drops one byte and keeps the byte at stream offset 1. -/
theorem witness_HeldBytesAreNeverModified :
    ∃ t, exec .scanStep (scanningWith [7, 8, 9, 10]) = .next t ∧ Instr.scanStep ≠ .reset ∧
      t.status = (scanningWith [7, 8, 9, 10]).status ∧ t.rxbase ≤ 1 ∧
      1 < (scanningWith [7, 8, 9, 10]).rxbase + (scanningWith [7, 8, 9, 10]).rxbuf.length :=
  ⟨_, rfl, by decide, rfl, by decide, by decide⟩

theorem witness_HistoryIsNeverWithdrawn :
    (∃ t, exec (.rxByte 0) State.reset = .next t) ∧ Instr.rxByte 0 ≠ .reset := ⟨⟨_, rfl⟩, by decide⟩

/-- The length field at its boundary: a buffer of exactly `BUF_MAX` bytes. -/
theorem witness_StatusViewShowsModeStatusAndLength : Memory.wf Config.cfg.bufMax fullState.rxbuf :=
  Nat.le_of_eq List.length_replicate

/-- R22: `BUF_MAX` 14 and 15 need 4 bits, 16 needs 5, the longest legal frame (262154) 19. -/
theorem test_rxlenBits :
    rxlenBits 14 = 4 ∧ rxlenBits 15 = 4 ∧ rxlenBits 16 = 5 ∧ rxlenBits 262154 = 19 := by decide +kernel

/-- R22: a full buffer under the cap 16 reads 16. -/
theorem test_stat_rxlen :
    (State.stat (refCfg 16) { State.reset with rxbuf := List.replicate 16 0 }).rxlen.toNat = 16 := by
  decide +kernel

/-- Two instances, an operation on the second. -/
theorem witness_InstancesAreIsolated :
    ∃ sys', System.perform [State.reset, State.reset] 1 .close = .next sys' ∧ (0 : Nat) ≠ 1 :=
  ⟨_, rfl, by decide⟩

/-- Each clause: a pending line, bytes that are a row, bytes that are none, a table word, nothing pending. -/
theorem witness_StepPerformsTheNextTransaction :
    ({ State.reset with script := [.close] } : State).script = [.close] ∧
    decode [0xFF, 0xF6, 0x04, 0x0F] = .ok (.frameArg (-654321)) ∧
    decode [0xEB] = .error .noRowOfThisLength ∧
    decodeTableWord 32 0xFFF6040F = some (.frameArg (-654321)) ∧
    State.reset.script = [] :=
  ⟨rfl, rfl, rfl, test_table_word_frameArg, rfl⟩

end Sys2Proof.Tests
end

section
/-! SUPPORT. The decoder, the lines of a script, one step and the host's action on a system: what each can
do, said once. Then the statements of spec/00_scope.md: the open parameters (R5), the step (R8, R66, R160), and
that the state changes by operations alone (R8, R27). -/

namespace Sys2Proof

/-! ### The decoder and the lines of a script -/

/-- Everything the decoder can read, row by row (R50 to R53). -/
theorem decode_ok_cases {bytes : List Byte} {i : Instr} (h : decode bytes = .ok i) :
    (bytes.length = 4 ∧ i = .frameArg (be32 bytes 0)) ∨
    (bytes.length = 6 ∧ endAt bytes 2 = true ∧ i = .frameFtr (be16 bytes 0)) ∨
    (bytes.length = 8 ∧ startAt bytes 0 = true ∧ i = .frameHdr (be16 bytes 4) (be16 bytes 6)) ∨
    (bytes.length = 14 ∧ startAt bytes 0 = true ∧ be16 bytes 6 = 0 ∧ endAt bytes 10 = true ∧
      i = .frameN0 (be16 bytes 4) (be16 bytes 8)) := by
  unfold decode at h
  split_ifs at h with h4 h6 he h8 hs h14 hs hn he <;> cases h
  · exact .inl ⟨h4, rfl⟩
  · exact .inr (.inl ⟨h6, he, rfl⟩)
  · exact .inr (.inr (.inl ⟨h8, hs, rfl⟩))
  · exact .inr (.inr (.inr ⟨h14, hs, hn, he, rfl⟩))

theorem fetch_wire_of_ok {bytes : List Byte} {i : Instr} (h : decode bytes = .ok i) :
    fetch (.wire bytes) = i := by
  simp only [fetch, h]

theorem fetch_wire_of_error {bytes : List Byte} {e : DecodeError} (h : decode bytes = .error e) :
    fetch (.wire bytes) = .rxChunk bytes := by
  simp only [fetch, h]

/-- The table reader reads its word as the decoder reads the word's bytes. -/
theorem decode_tableBytes_of_some {nbits w : Nat} {i : Instr} (h : decodeTableWord nbits w = some i) :
    decode (tableBytes nbits w) = .ok i := by
  unfold decodeTableWord at h
  cases hd : decode (tableBytes nbits w) with
  | ok j =>
    rw [hd] at h
    exact congrArg Except.ok (Option.some.inj h)
  | error e =>
    rw [hd] at h
    cases h

end Sys2Proof

namespace Sys2Proof.Machine

/-! ### One step, and the host's action on a system -/

theorem step_of_script_nil {s : State} (h : s.script = []) : step s = .next s := by
  simp only [step, h]

theorem step_of_script_cons {s : State} {line : Line} {rest : List Line} (h : s.script = line :: rest) :
    step s = exec (fetch line) { s with script := rest } := by
  simp only [step, h]

/-- A supplied table word is the next transaction, and the step takes it off again. -/
theorem step_withFetchWord (s : State) (nbits w : Nat) :
    step (s.withFetchWord nbits w) = exec (fetch (.wire (tableBytes nbits w))) s :=
  step_of_script_cons (s := s.withFetchWord nbits w) rfl

/-- The two things the host's action on number `k` of a system can do (R26, R27). -/
theorem perform_cases {sys sys' : List State} {k : Nat} {line : Line}
    (h : System.perform sys k line = .next sys') :
    (sys[k]? = none ∧ sys' = sys) ∨
    (∃ s t, sys[k]? = some s ∧ exec (fetch line) s = .next t ∧ sys' = sys.set k t) := by
  unfold System.perform at h
  split at h
  · next hk =>
    cases h
    exact .inl ⟨hk, rfl⟩
  · next s hk =>
    split at h
    · next t ht =>
      cases h
      exact .inr ⟨s, t, hk, ht, rfl⟩
    · cases h
    · cases h

/-! ### Changes of state by operations alone -/

/-- Some list of the four operations of R8, performed one after the other, makes `t` of `s`. -/
def ReachedByOperations (s t : State) : Prop :=
  ∃ ops : List Instr, (∀ i ∈ ops, i.isOperation = true) ∧ execAll ops s = .next t

theorem ReachedByOperations.refl (s : State) : ReachedByOperations s s := ⟨[], by simp, rfl⟩

/-- One operation, then what operations reach from there. -/
theorem ReachedByOperations.head {i : Instr} {s u t : State} (hi : i.isOperation = true)
    (hu : exec i s = .next u) (ht : ReachedByOperations u t) : ReachedByOperations s t := by
  obtain ⟨ops, hops, hrun⟩ := ht
  refine ⟨i :: ops, ?_, ?_⟩
  · simpa only [List.forall_mem_cons] using ⟨hi, hops⟩
  · simpa only [execAll, hu] using hrun

theorem ReachedByOperations.of_operation {i : Instr} {s t : State} (hi : i.isOperation = true)
    (ht : exec i s = .next t) : ReachedByOperations s t :=
  .head hi ht (.refl t)

/-- `RX_CHUNK` is its bytes by `RX_BYTE`, up to the first that is answered `RxFatal` (R119). -/
theorem rxChunk_reachedByOperations (bytes : List Byte) (s : State) :
    ReachedByOperations s (rxChunk Config.cfg bytes s) := by
  induction bytes generalizing s with
  | nil => exact .refl s
  | cons b rest ih =>
    have hb : exec (.rxByte b) s = .next (rxByteAnswered Config.cfg b s) := rfl
    unfold rxChunk
    split
    · exact .of_operation rfl hb
    · exact .head rfl hb (ih _)

/-- A frame-format row, as an instruction, is `RX_CHUNK` of the bytes it presents (log entry 2). -/
theorem exec_of_decode_ok {bytes : List Byte} {i : Instr} (h : decode bytes = .ok i) (s : State) :
    exec i s = .next (rxChunk Config.cfg (presented Config.cfg i) s) := by
  rcases decode_ok_cases h with ⟨_, rfl⟩ | ⟨_, _, rfl⟩ | ⟨_, _, rfl⟩ | ⟨_, _, _, _, rfl⟩ <;> rfl

/-- `RX_FRAME` is `RX_CHUNK` of the encoded frame wherever it gives a next state (R66). -/
theorem exec_rxFrame_next {cmd : U16} {args : List I32} {s t : State}
    (h : exec (.rxFrame cmd args) s = .next t) :
    args.length ≤ Config.maxArgs ∧ t = rxChunk Config.cfg (encodeFrame Config.cfg cmd args) s := by
  change execRxFrame cmd args s = .next t at h
  unfold execRxFrame at h
  split at h
  · next hargs =>
    cases h
    exact ⟨hargs, rfl⟩
  · cases h

/-- Bytes on the wire are received by `RX_BYTE` alone, a row and no row alike (R60, R66). -/
theorem fetch_wire_reachedByOperations {bytes : List Byte} {s t : State}
    (h : exec (fetch (.wire bytes)) s = .next t) : ReachedByOperations s t := by
  cases hd : decode bytes with
  | ok i =>
    rw [fetch_wire_of_ok hd, exec_of_decode_ok hd] at h
    cases h
    exact rxChunk_reachedByOperations _ s
  | error e =>
    rw [fetch_wire_of_error hd] at h
    cases h
    exact rxChunk_reachedByOperations bytes s

/-- Whatever the host puts before the block, it changes the state by operations alone (R8). -/
theorem fetch_reachedByOperations {line : Line} {s t : State}
    (h : exec (fetch line) s = .next t) : ReachedByOperations s t := by
  cases line with
  | reset => exact .of_operation (i := .reset) rfl h
  | close => exact .of_operation (i := .close) rfl h
  | rxByte b => exact .of_operation (i := .rxByte b) rfl h
  | txSend cmd args => exact .of_operation (i := .txSend cmd args) rfl h
  | rxChunk bytes =>
    cases h
    exact rxChunk_reachedByOperations bytes s
  | rxFrame cmd args =>
    obtain ⟨_, rfl⟩ := exec_rxFrame_next h
    exact rxChunk_reachedByOperations _ s
  | wire bytes => exact fetch_wire_reachedByOperations h

/-- A step reaches its next state by operations, from the state with the first line taken off (R8). -/
theorem step_reachedByOperations {s t : State} (h : step s = .next t) :
    ReachedByOperations { s with script := s.script.tail } t := by
  cases hs : s.script with
  | nil =>
    rw [step_of_script_nil hs] at h
    cases h
    have hkeep : { s with script := [] } = s := by rw [← hs]
    exact hkeep ▸ .refl s
  | cons line rest =>
    rw [step_of_script_cons hs] at h
    exact fetch_reachedByOperations h

/-! ### The statements -/

/-- Settles O58: a line stands for operations (`fetch_reachedByOperations`), and both the step and the host's
action execute a line. -/
theorem stepChangesTheStateByOperationsAlone : Obligations.StepChangesTheStateByOperationsAlone := by
  refine ⟨fun s t h => step_reachedByOperations h, fun sys sys' k line s hk h => ?_⟩
  rcases perform_cases h with ⟨hnone, _⟩ | ⟨s', t, hs', ht, rfl⟩
  · rw [hk] at hnone
    cases hnone
  · rw [hk] at hs'
    cases hs'
    obtain ⟨ops, hops, hrun⟩ := fetch_reachedByOperations ht
    exact ⟨ops, t, hops, hrun, rfl⟩

/-- Settles O5: the slack is added to the bound of R5, and the algorithm carries its law in its type (R74). -/
theorem openParametersMeetTheirRequirements : Obligations.OpenParametersMeetTheirRequirements :=
  ⟨Nat.le_add_left _ Config.bufSlack, (@Config.openCksum ⟨⟨cksumSum, cksumSum_law⟩⟩).law, rfl⟩

/-- Settles O59, each clause by the equation of `step` or `fetch` that it names. -/
theorem stepPerformsTheNextTransaction : Obligations.StepPerformsTheNextTransaction := by
  refine ⟨fun s line rest h => step_of_script_cons h, ?_, fun bytes i h => fetch_wire_of_ok h,
    fun bytes e h => fetch_wire_of_error h, fun s nbits w i h => ?_, fun s h => step_of_script_nil h⟩
  · exact ⟨rfl, rfl, fun _ => rfl, fun _ _ => rfl, fun _ => rfl, fun _ _ => rfl⟩
  · rw [step_withFetchWord, fetch_wire_of_ok (decode_tableBytes_of_some h)]

end Sys2Proof.Machine
end

section
/-! SUPPORT. `ENCODE` and `TRYDECODE` against each other, in both directions (R82, R101): an encoded frame decodes
to what it was made from, all of its proper beginnings are incomplete, and what an `Ok` took off the front of a
buffer is the encoding of the frame it answers. -/

namespace Sys2Proof

/-! ### Bytes written again from their fields -/

theorem bytes32_append (a b : U16) : bytes32 (a ++ b) = bytes16 a ++ bytes16 b := by
  have key (i : Nat) : BitVec.getLsbD (a ++ b) i = if i < 16 then b.getLsbD i else a.getLsbD (i - 16) :=
    BitVec.getLsbD_append
  simp only [bytes32, bytes16, List.cons_append, List.nil_append, List.cons.injEq, and_true]
  refine ⟨?_, ?_, ?_, ?_⟩ <;> apply BitVec.eq_of_getLsbD_eq <;> intro i hi <;>
    simp only [BitVec.getLsbD_extractLsb', key, hi, decide_true, Bool.true_and]
  · rw [if_neg (by omega)]
    congr 1
    omega
  · rw [if_neg (by omega)]
    congr 1
    omega
  · rw [if_pos (by omega)]
  · rw [if_pos (by omega)]

/-- The two bytes at an offset are the u16 field there (R55). -/
theorem take_two_drop {s : List Byte} {o : Nat} (h : o + 2 ≤ s.length) :
    (s.drop o).take 2 = bytes16 (be16 s o) := by
  rw [bytes16_be16, List.drop_eq_getElem_cons (by omega), List.drop_eq_getElem_cons (by omega)]
  simp only [List.take_succ_cons, List.take_zero, byteAt, List.getD_eq_getElem s 0 (show o < s.length by omega),
    List.getD_eq_getElem s 0 (show o + 1 < s.length by omega)]

/-- The four bytes at an offset are the argument there (R52). -/
theorem take_four_drop {s : List Byte} {o : Nat} (h : o + 4 ≤ s.length) :
    (s.drop o).take 4 = argBytes (be32 s o) := by
  rw [argBytes, be32, bytes32_append, ← take_two_drop (by omega), ← take_two_drop (by omega),
    ← List.drop_drop, ← List.take_add]

end Sys2Proof

namespace Sys2Proof.Machine

/-! ### The fields of an encoded frame (R39, R50) -/

section header
variable (cmd : U16) (args : List I32) (rest : List Byte)

theorem startCode1_encodeRegion : startCode1 (encodeRegion cmd args ++ rest) = Config.start1 :=
  be16_bytes16 Config.start1

theorem startCode2_encodeRegion : startCode2 (encodeRegion cmd args ++ rest) = Config.start2 :=
  be16_bytes16 Config.start2

theorem cmdField_encodeRegion : cmdField (encodeRegion cmd args ++ rest) = cmd := be16_bytes16 cmd

/-- The arg_count field of a frame is its number of arguments, which the domain of R80 lets 16 bits hold. -/
theorem countField_encodeRegion (h : args.length ≤ Config.maxArgs) :
    (countField (encodeRegion cmd args ++ rest)).toNat = args.length := by
  have hcount : countField (encodeRegion cmd args ++ rest) = BitVec.ofNat 16 args.length := be16_bytes16 _
  rw [hcount, BitVec.toNat_ofNat]
  exact Nat.mod_eq_of_lt (Nat.lt_succ_of_le h)

end header

theorem be32_flatMap_argBytes (args : List I32) (rest : List Byte) (k : Nat) (h : k < args.length) :
    be32 (args.flatMap argBytes ++ rest) (4 * k) = args[k] := by
  induction args generalizing k with
  | nil => simp at h
  | cons a args ih =>
    rw [List.flatMap_cons, List.append_assoc]
    cases k with
    | zero => exact (be32_append_left (by simp)).trans (be32_bytes32 a)
    | succ k =>
      rw [show 4 * (k + 1) = (argBytes a).length + 4 * k by simp; omega, be32_append_right]
      simpa using ih k (by simpa using h)

theorem argsField_encodeRegion (cmd : U16) (args : List I32) (rest : List Byte) :
    argsField (encodeRegion cmd args ++ rest) args.length = args := by
  refine List.ext_getElem (by simp [argsField]) fun k hk _ => ?_
  have hk : k < args.length := by simpa [argsField] using hk
  simp only [argsField, List.getElem_map, List.getElem_range, argField, encodeRegion, List.append_assoc]
  rw [show 8 = (headerBytes cmd (BitVec.ofNat 16 args.length)).length from rfl, be32_append_right]
  exact be32_flatMap_argBytes args rest k hk

variable (c : Cfg)

@[simp] theorem encodeFrame_length (cmd : U16) (args : List I32) :
    (encodeFrame c cmd args).length = frameLen args.length := by
  simp only [encodeFrame, List.length_append, encodeRegion_length, footerBytes_length, frameLen]
  omega

/-- A field of the footer, behind a region of `8 + 4n` bytes. -/
theorem be16_footer {region : List Byte} {n o : Nat} (k : U16) (rest : List Byte)
    (hr : region.length = 8 + 4 * n) (ho : o + 2 ≤ 6) :
    be16 (region ++ (footerBytes k ++ rest)) (8 + 4 * n + o) = be16 (footerBytes k) o := by
  rw [← hr, be16_append_right, be16_append_left (by simpa using ho)]

/-! ### Decoding an encoded frame -/

/-- `Ok` where every test of R98 passes (R97). -/
theorem tryDecode_eq_ok {s : List Byte} {n : Nat} (hn : (countField s).toNat = n)
    (hlen : frameLen n ≤ s.length) (h1 : startCode1 s = Config.start1) (h2 : startCode2 s = Config.start2)
    (he1 : endCode1 s n = Config.end1) (he2 : endCode2 s n = Config.end2)
    (hk : c.cksum (coveredRegion s n) = checksumField s n) :
    tryDecode c s = .ok { cmd := cmdField s, args := argsField s n } (frameLen n) := by
  subst hn
  have h14 : 14 ≤ frameLen (countField s).toNat := Nat.le_add_right _ _
  rcases tryDecode_cases c s with
    ⟨h, _⟩ | ⟨_, h, _⟩ | ⟨_, _, _, ⟨h, _⟩ | ⟨_, h, _⟩ | ⟨_, _, _, ⟨h, _⟩ | ⟨_, h⟩⟩⟩
  · omega
  · simp [h1, h2] at h
  · omega
  · simp [he1, he2] at h
  · exact absurd hk h
  · exact h

/-- An encoded frame decodes to what it was made from, whatever follows it (R82). -/
theorem tryDecode_encodeFrame_append {cmd : U16} {args : List I32} (rest : List Byte)
    (h : args.length ≤ Config.maxArgs) :
    tryDecode c (encodeFrame c cmd args ++ rest) =
      .ok { cmd := cmd, args := args } (frameLen args.length) := by
  have hr : (encodeRegion cmd args).length = 8 + 4 * args.length := encodeRegion_length cmd args
  rw [encodeFrame, ckCompute, List.append_assoc]
  have hcovered (rest : List Byte) :
      coveredRegion (encodeRegion cmd args ++ rest) args.length = encodeRegion cmd args := by
    rw [coveredRegion, ← hr, List.take_left]
  rw [tryDecode_eq_ok c (countField_encodeRegion cmd args _ h), cmdField_encodeRegion, argsField_encodeRegion]
  case hlen =>
    simp only [List.length_append, hr, footerBytes_length, frameLen]
    omega
  case h1 => exact startCode1_encodeRegion cmd args _
  case h2 => exact startCode2_encodeRegion cmd args _
  case he1 =>
    rw [endCode1, show 10 + 4 * args.length = 8 + 4 * args.length + 2 by omega,
      be16_footer _ _ hr (by omega)]
    exact be16_bytes16 Config.end1
  case he2 =>
    rw [endCode2, show 12 + 4 * args.length = 8 + 4 * args.length + 4 by omega,
      be16_footer _ _ hr (by omega)]
    exact be16_bytes16 Config.end2
  case hk =>
    rw [hcovered, checksumField]
    exact ((be16_footer (o := 0) _ _ hr (by omega)).trans (be16_bytes16 _)).symm

/-! ### Incomplete buffers -/

theorem tryDecode_incomplete_of_length_lt {s : List Byte} (h : s.length < 8) :
    (tryDecode c s).incomplete := .inl (if_pos h)

/-- What an incomplete outcome says of the buffer (R91, R94). -/
theorem tryDecode_incomplete_cases {s : List Byte} (h : (tryDecode c s).incomplete) :
    s.length < 8 ∨ (8 ≤ s.length ∧ Config.startBytes <+: s ∧ s.length < frameLen (countField s).toNat) := by
  rcases tryDecode_cases c s with
    ⟨h8, _⟩ | ⟨_, _, e⟩ | ⟨h8, h1, h2, ⟨hl, _⟩ | ⟨_, _, e⟩ | ⟨_, _, _, ⟨_, e⟩ | ⟨_, e⟩⟩⟩
  case inr.inr.inl =>
    refine .inr ⟨h8, ?_, hl⟩
    rw [← (startCodes_iff (show 4 ≤ s.length by omega)).mp ⟨h1, h2⟩]
    exact List.take_prefix 4 s
  case inl => exact .inl h8
  all_goals simp [e, DecodeOutcome.incomplete] at h

/-- Nothing is said of a frame before its last byte (R94). -/
theorem tryDecode_incompleteBody {s : List Byte} (h8 : 8 ≤ s.length) (h1 : startCode1 s = Config.start1)
    (h2 : startCode2 s = Config.start2) (hlen : s.length < frameLen (countField s).toNat) :
    tryDecode c s = .incompleteBody := by
  rcases tryDecode_cases c s with
    ⟨h, _⟩ | ⟨_, h, _⟩ | ⟨_, _, _, ⟨_, h⟩ | ⟨h, _⟩ | ⟨h, _⟩⟩
  · omega
  · simp [h1, h2] at h
  · exact h
  · omega
  · omega

/-- Every proper beginning of an encoded frame is incomplete (R94, R174). -/
theorem tryDecode_incomplete_of_take_encodeFrame {cmd : U16} {args : List I32}
    (h : args.length ≤ Config.maxArgs) {k : Nat} (hk : k < frameLen args.length) :
    (tryDecode c ((encodeFrame c cmd args).take k)).incomplete := by
  have hlen : ((encodeFrame c cmd args).take k).length = k := by
    simpa using Nat.le_of_lt hk
  by_cases h8 : k < 8
  · exact tryDecode_incomplete_of_length_lt c (by omega)
  have htake : countField ((encodeFrame c cmd args).take k) = countField (encodeFrame c cmd args) :=
    be16_take (by omega)
  refine .inr (tryDecode_incompleteBody c (by omega)
    ((be16_take (by omega)).trans (startCode1_encodeRegion cmd args _))
    ((be16_take (by omega)).trans (startCode2_encodeRegion cmd args _)) ?_)
  rw [hlen, htake, encodeFrame, countField_encodeRegion cmd args _ h]
  exact hk

/-! ### Encoding a decoded frame -/

/-- The bytes of the arguments, written again from the fields (R52). -/
theorem argsField_flatMap_argBytes {s : List Byte} {n : Nat} (h : 8 + 4 * n ≤ s.length) :
    (argsField s n).flatMap argBytes = (s.drop 8).take (4 * n) := by
  induction n with
  | zero => rfl
  | succ n ih =>
    have harg : ((s.drop 8).drop (4 * n)).take 4 = argBytes (argField s n) := by
      rw [List.drop_drop, take_four_drop (by omega), argField]
    rw [Nat.mul_succ, List.take_add, ← ih (by omega), harg]
    simp [argsField, List.range_succ]

/-- The header's bytes, written again from its fields (R51). -/
theorem headerBytes_eq_take {s : List Byte} (h8 : 8 ≤ s.length) (h1 : startCode1 s = Config.start1)
    (h2 : startCode2 s = Config.start2) : headerBytes (cmdField s) (countField s) = s.take 8 := by
  rw [headerBytes, ← h1, ← h2, startCode1, startCode2, cmdField, countField,
    ← take_two_drop (by omega), ← take_two_drop (by omega), ← take_two_drop (by omega),
    ← take_two_drop (by omega), List.drop_zero, ← List.take_add, ← List.take_add, ← List.take_add]

/-- The footer's bytes, written again from its fields (R53). -/
theorem footerBytes_eq_take_drop {s : List Byte} {n : Nat} (h : frameLen n ≤ s.length)
    (h1 : endCode1 s n = Config.end1) (h2 : endCode2 s n = Config.end2) :
    footerBytes (checksumField s n) = (s.drop (8 + 4 * n)).take 6 := by
  have hl : 14 + 4 * n ≤ s.length := h
  have e1 : endCode1 s n = be16 s (8 + 4 * n + 2) := congrArg (be16 s) (by omega)
  have e2 : endCode2 s n = be16 s (8 + 4 * n + (2 + 2)) := congrArg (be16 s) (by omega)
  rw [footerBytes, ← h1, ← h2, e1, e2, checksumField, ← take_two_drop (by omega),
    ← take_two_drop (by omega), ← take_two_drop (by omega), ← List.drop_drop (j := 8 + 4 * n),
    ← List.drop_drop (j := 8 + 4 * n), ← List.take_add, ← List.take_add]

/-- What an `Ok` took off the front is the encoding of the frame it answers (R57, R101). -/
theorem encodeFrame_of_tryDecode_ok {s : List Byte} {f : Frame} {len : Nat}
    (h : tryDecode c s = .ok f len) :
    f.args.length ≤ Config.maxArgs ∧ encodeFrame c f.cmd f.args = s.take len := by
  rcases tryDecode_cases c s with ⟨_, e⟩ | ⟨_, _, e⟩ | ⟨h8, h1, h2, ⟨_, e⟩ | ⟨_, _, e⟩ |
      ⟨hl, he1, he2, ⟨_, e⟩ | ⟨hk, e⟩⟩⟩ <;>
    rw [e] at h <;> simp only [reduceCtorEq, DecodeOutcome.ok.injEq] at h
  obtain ⟨rfl, rfl⟩ := h
  have hlen : (argsField s (countField s).toNat).length = (countField s).toNat := by simp [argsField]
  have hfits : 8 + 4 * (countField s).toNat ≤ s.length := by
    rw [frameLen] at hl
    omega
  have hregion : encodeRegion (cmdField s) (argsField s (countField s).toNat) =
      coveredRegion s (countField s).toNat := by
    rw [encodeRegion, hlen, BitVec.ofNat_toNat, BitVec.setWidth_eq, headerBytes_eq_take h8 h1 h2,
      argsField_flatMap_argBytes hfits, ← List.take_add, coveredRegion]
  constructor
  · rw [hlen]
    exact Nat.le_of_lt_succ (countField s).isLt
  · rw [encodeFrame, ckCompute, hregion, hk, footerBytes_eq_take_drop hl he1 he2, coveredRegion,
      ← List.take_add, frameLen]
    congr 1
    omega

end Sys2Proof.Machine
end

section
/-! SUPPORT. The receive side across whole operations: `DRAIN` ends with nothing left to do and only drops from
the front (R24, R117), quiescence is kept by each function that writes the buffer, every frame it reports stood
whole in the bytes it read (R121), and bytes of an unfinished frame are held (R110). -/

namespace Sys2Proof.Machine

variable (c : Cfg)

/-! ### `DRAIN` ends drained (R108, R117) -/

/-- What each round of the loop makes smaller: a scan match only changes the mode, every other round that goes on
drops a byte. -/
def drainMeasure (s : State) : Nat := 2 * s.rxbuf.length + if s.rxmode = .scanning then 1 else 0

theorem drainMeasure_of_synchronized {s : State} (h : s.rxmode = .synchronized) :
    drainMeasure s = 2 * s.rxbuf.length := by simp [drainMeasure, h]

theorem drainMeasure_of_scanning {s : State} (h : s.rxmode = .scanning) :
    drainMeasure s = 2 * s.rxbuf.length + 1 := by simp [drainMeasure, h]

theorem drainMeasure_le (s : State) : drainMeasure s ≤ 2 * s.rxbuf.length + 1 := by
  cases h : s.rxmode with
  | synchronized => exact (drainMeasure_of_synchronized h).le.trans (Nat.le_succ _)
  | scanning => exact (drainMeasure_of_scanning h).le

/-- A buffer without `START`, cut to its last three bytes, is drained in either mode (R115). -/
theorem drained_of_findStart_none {s : State} (h : findStart s.rxbuf = none) :
    Drained c (s.dropFront (s.rxbuf.length - min Config.scanKeep s.rxbuf.length)) := by
  have hlen : (s.rxbuf.drop (s.rxbuf.length - min Config.scanKeep s.rxbuf.length)).length ≤ 3 := by
    simp only [List.length_drop, Config.scanKeep]
    omega
  refine ⟨fun _ => tryDecode_incomplete_of_length_lt c (Nat.lt_of_le_of_lt hlen (by decide)),
    fun _ => ⟨hlen, ?_⟩⟩
  rintro ⟨i, hi⟩
  rw [State.dropFront_rxbuf, List.drop_drop] at hi
  exact findStart_none h _ hi

/-- A round that says *wait* leaves the buffer drained. -/
theorem drainStep_wait_drained {s t : State} (h : drainStep c s = (.wait, t)) : Drained c t := by
  unfold drainStep at h
  split at h
  next hm =>
    rcases syncStep_cases c s with ⟨hinc, e⟩ | ⟨f, len, _, _, _, e⟩ | ⟨k, _, _, e⟩ <;> rw [e] at h <;> cases h
    exact ⟨fun _ => hinc, fun hs => by simp [hm] at hs⟩
  next hm =>
    rcases scanStep_cases s with ⟨i, _, e⟩ | ⟨hnone, e⟩ <;> rw [e] at h <;> cases h
    exact drained_of_findStart_none c hnone

/-- A round that says *again* makes the measure smaller. -/
theorem drainStep_again_measure_lt {s t : State} (h : drainStep c s = (.again, t)) :
    drainMeasure t < drainMeasure s := by
  unfold drainStep at h
  split at h
  next hm =>
    rcases syncStep_cases c s with ⟨_, e⟩ | ⟨f, len, _, h14, hlen, e⟩ | ⟨k, h8, _, e⟩ <;> rw [e] at h <;> cases h
    · rw [drainMeasure_of_synchronized hm, drainMeasure_of_synchronized (by simpa using hm),
        State.dropFront_rxbuf, State.emit_rxbuf, List.length_drop]
      omega
    · rw [drainMeasure_of_synchronized hm, drainMeasure_of_scanning rfl, State.raiseWarn_rxbuf,
        List.length_drop]
      omega
  next hm =>
    rcases scanStep_cases s with ⟨i, _, e⟩ | ⟨_, e⟩ <;> rw [e] at h <;> cases h
    rw [drainMeasure_of_scanning hm, drainMeasure_of_synchronized rfl, State.resumeAt_rxbuf,
      List.length_drop]
    omega

theorem drainFuel_wait {s t : State} (fuel : Nat) (h : drainStep c s = (.wait, t)) :
    drainFuel c (fuel + 1) s = t := by simp only [drainFuel, h]

theorem drainFuel_again {s t : State} (fuel : Nat) (h : drainStep c s = (.again, t)) :
    drainFuel c (fuel + 1) s = drainFuel c fuel t := by simp only [drainFuel, h]

theorem drainFuel_drained (fuel : Nat) (s : State) (h : drainMeasure s < fuel) :
    Drained c (drainFuel c fuel s) := by
  induction fuel generalizing s with
  | zero => omega
  | succ fuel ih =>
    rcases hd : drainStep c s with ⟨_ | _, t⟩
    · rw [drainFuel_wait c fuel hd]
      exact drainStep_wait_drained c hd
    · rw [drainFuel_again c fuel hd]
      exact ih t (by have := drainStep_again_measure_lt c hd; omega)

/-- `DRAIN` ends with nothing left to do: R117's bound is never what ends it. -/
theorem drain_drained (s : State) : Drained c (drain c s) :=
  drainFuel_drained c _ s (Nat.lt_succ_of_le (drainMeasure_le s))

/-- On an incomplete buffer `SYNC_STEP` waits (R110). -/
theorem syncStep_of_incomplete {s : State} (h : (tryDecode c s.rxbuf).incomplete) :
    syncStep c s = (.wait, s) := by
  rcases h with h | h <;> simp only [syncStep, h]

/-- On an incomplete buffer a synchronized `DRAIN` does nothing (R110). -/
theorem drain_of_incomplete {s : State} (hm : s.rxmode = .synchronized)
    (h : (tryDecode c s.rxbuf).incomplete) : drain c s = s :=
  drainFuel_wait c _ (by simp only [drainStep, hm, syncStep_of_incomplete c h])

/-! ### `DRAIN` only drops from the front (R15, R23) -/

/-- From `s` to `t` some bytes were dropped from the front of the buffer, counted by `RXBASE`, and nothing else
happened to the buffer (R15). -/
def Advances (s t : State) : Prop :=
  ∃ k ≤ s.rxbuf.length, t.rxbase = s.rxbase + k ∧ t.rxbuf = s.rxbuf.drop k

theorem Advances.refl (s : State) : Advances s s := ⟨0, Nat.zero_le _, rfl, rfl⟩

theorem Advances.trans {s t u : State} (h : Advances s t) (h' : Advances t u) : Advances s u := by
  obtain ⟨k, hk, hbase, hbuf⟩ := h
  obtain ⟨j, hj, hbase', hbuf'⟩ := h'
  rw [hbuf, List.length_drop] at hj
  exact ⟨k + j, by omega, by omega, by rw [hbuf', hbuf, List.drop_drop]⟩

theorem Advances.suffix {s t : State} (h : Advances s t) : t.rxbuf <:+ s.rxbuf := by
  obtain ⟨k, _, _, hbuf⟩ := h
  exact hbuf ▸ List.drop_suffix k s.rxbuf

theorem findStart_add_four_le {s : List Byte} {i : Nat} (h : findStart s = some i) : i + 4 ≤ s.length := by
  have hle := (findStart_some h).1.length_le
  simp only [Config.startBytes, List.length_cons, List.length_nil, List.length_drop] at hle
  omega

theorem syncStep_advances (s : State) : Advances s (syncStep c s).2 := by
  rcases syncStep_cases c s with ⟨_, e⟩ | ⟨f, len, _, _, hlen, e⟩ | ⟨k, h8, _, e⟩ <;> rw [e]
  · exact .refl s
  · exact ⟨len, hlen, rfl, rfl⟩
  · exact ⟨1, by omega, rfl, rfl⟩

theorem scanStep_advances (s : State) : Advances s (scanStep s).2 := by
  rcases scanStep_cases s with ⟨i, hi, e⟩ | ⟨_, e⟩ <;> rw [e]
  · exact ⟨i, by have := findStart_add_four_le hi; omega, rfl, rfl⟩
  · exact ⟨_, Nat.sub_le _ _, rfl, rfl⟩

theorem drain_advances (s : State) : Advances s (drain c s) :=
  drain_induct c (P := Advances s) (fun t h => h.trans (syncStep_advances c t))
    (fun t h => h.trans (scanStep_advances t)) s (.refl s)

/-! ### Quiescence (R24) -/

/-- Whatever is quiescent holds no byte that a decoder could judge. -/
theorem Quiescent.incomplete {c : Cfg} {s : State} (h : Quiescent c s) :
    (tryDecode c s.rxbuf).incomplete := by
  obtain ⟨hopen, hreleased⟩ := h
  by_cases ho : s.status = .opened
  · obtain ⟨_, hsync, hscan⟩ := hopen ho
    cases hm : s.rxmode with
    | synchronized => exact hsync hm
    | scanning =>
      exact tryDecode_incomplete_of_length_lt c (Nat.lt_of_le_of_lt (hscan hm).1 (by decide))
  · exact .inl (by rw [(hreleased ho).1, tryDecode_nil])

/-- Quiescence reads the buffer, the mode and the status alone. -/
theorem Quiescent.congr {c : Cfg} {s t : State} (h : Quiescent c s) (hbuf : t.rxbuf = s.rxbuf)
    (hmode : t.rxmode = s.rxmode) (hstatus : t.status = s.status) : Quiescent c t := by
  unfold Quiescent Drained at *
  rwa [hbuf, hmode, hstatus]

theorem quiescent_of_released {s : State} (hbuf : s.rxbuf = []) (hmode : s.rxmode = .synchronized) :
    Quiescent c s := by
  refine ⟨fun _ => ⟨by simp [hbuf], fun _ => ?_, fun hs => by simp [hmode] at hs⟩, fun _ => ⟨hbuf, hmode⟩⟩
  rw [hbuf]
  exact .inl (tryDecode_nil c)

theorem quiescent_drain_of_opened {s : State} (ho : s.status = .opened)
    (hwf : Memory.wf c.bufMax s.rxbuf) : Quiescent c (drain c s) :=
  ⟨fun _ => ⟨drain_keeps_wf c hwf, drain_drained c s⟩, fun hn => absurd ((drain_status c s).trans ho) hn⟩

theorem Quiescent.drain {c : Cfg} {s : State} (h : Quiescent c s) : Quiescent c (drain c s) := by
  by_cases ho : s.status = .opened
  · exact quiescent_drain_of_opened c ho (h.1 ho).1
  · rwa [drain_of_incomplete c (h.2 ho).2 h.incomplete]

theorem Quiescent.syncStep {c : Cfg} {s : State} (h : Quiescent c s) :
    Quiescent c (syncStep c s).2 := by
  rwa [syncStep_of_incomplete c h.incomplete]

/-- A scan match in a buffer that already waits for more bytes is at its front, or leaves too few bytes to
judge. -/
theorem tryDecode_incomplete_drop_findStart {s : List Byte} {i : Nat} (h : (tryDecode c s).incomplete)
    (hi : findStart s = some i) : (tryDecode c (s.drop i)).incomplete := by
  rcases tryDecode_incomplete_cases c h with h8 | ⟨_, hstart, _⟩
  · exact tryDecode_incomplete_of_length_lt c (by simp only [List.length_drop]; omega)
  · have hzero : i = 0 := Nat.eq_zero_of_not_pos fun hpos => (findStart_some hi).2 0 hpos hstart
    rwa [hzero]

theorem Quiescent.scanStep {c : Cfg} {s : State} (h : Quiescent c s) : Quiescent c (scanStep s).2 := by
  by_cases ho : s.status = .opened
  · obtain ⟨hwf, _⟩ := h.1 ho
    rcases scanStep_cases s with ⟨i, hi, e⟩ | ⟨hnone, e⟩ <;> rw [e]
    · exact ⟨fun _ => ⟨resumeAt_keeps_wf i hwf,
        fun _ => tryDecode_incomplete_drop_findStart c h.incomplete hi, fun hs => by simp at hs⟩,
        fun hn => absurd ho hn⟩
    · exact ⟨fun _ => ⟨dropFront_keeps_wf _ hwf, drained_of_findStart_none c hnone⟩,
        fun hn => absurd ho hn⟩
  · obtain ⟨hbuf, hmode⟩ := h.2 ho
    have hnone : findStart s.rxbuf = none := by rw [hbuf, findStart]
    rcases scanStep_cases s with ⟨i, hi, _⟩ | ⟨_, e⟩
    · rw [hnone] at hi
      cases hi
    · rw [e]
      exact quiescent_of_released c (by simp [hbuf]) (by simpa using hmode)

theorem Quiescent.rxByteAnswered {c : Cfg} {s : State} (b : Byte) (h : Quiescent c s) :
    Quiescent c (rxByteAnswered c b s) := by
  refine Quiescent.congr (s := (rxByte c b s).2) ?_ rfl rfl rfl
  rcases rxByte_cases c b s with ⟨_, e⟩ | ⟨_, _, e⟩ | ⟨ho, hroom, e⟩ <;> rw [e]
  · exact h
  · exact quiescent_of_released c rfl rfl
  · exact quiescent_drain_of_opened c ho (append_keeps_wf b hroom)

theorem Quiescent.rxChunk {c : Cfg} {s : State} (bytes : List Byte) (h : Quiescent c s) :
    Quiescent c (rxChunk c bytes s) :=
  rxChunk_induct c (fun b _ ht => ht.rxByteAnswered b) bytes s h

theorem Quiescent.closeConnection {c : Cfg} {s : State} (h : Quiescent c s) :
    Quiescent c (closeConnection s) := by
  unfold Machine.closeConnection
  split
  · exact quiescent_of_released c rfl rfl
  · exact h

/-! ### Frames stood whole in the bytes (R16, R121) -/

/-- From `s` to `t` events were appended, and each frame among them stood whole in `bytes`. -/
def DeliversFrom (c : Cfg) (bytes : List Byte) (s t : State) : Prop :=
  ∃ evs, t.rxev = s.rxev ++ evs ∧ ∀ f, Event.frame f ∈ evs →
    f.args.length ≤ Config.maxArgs ∧ encodeFrame c f.cmd f.args <:+: bytes

section deliversFrom
variable {c : Cfg} {bytes bytes' : List Byte} {s t u : State}

theorem DeliversFrom.of_rxev_eq (h : t.rxev = s.rxev) : DeliversFrom c bytes s t :=
  ⟨[], by simpa using h, by simp⟩

/-- A single event that, if it is a frame, stood whole in `bytes`. -/
theorem DeliversFrom.of_event {e : Event} (h : t.rxev = s.rxev ++ [e])
    (he : ∀ f, Event.frame f = e → f.args.length ≤ Config.maxArgs ∧
      encodeFrame c f.cmd f.args <:+: bytes) : DeliversFrom c bytes s t :=
  ⟨[e], h, fun f hf => he f (List.mem_singleton.mp hf)⟩

theorem DeliversFrom.mono (h : DeliversFrom c bytes s t) (hb : bytes <:+: bytes') :
    DeliversFrom c bytes' s t := by
  obtain ⟨evs, hev, hfr⟩ := h
  exact ⟨evs, hev, fun f hf => ⟨(hfr f hf).1, (hfr f hf).2.trans hb⟩⟩

theorem DeliversFrom.trans (h : DeliversFrom c bytes s t) (h' : DeliversFrom c bytes t u) :
    DeliversFrom c bytes s u := by
  obtain ⟨evs, hev, hfr⟩ := h
  obtain ⟨evs', hev', hfr'⟩ := h'
  refine ⟨evs ++ evs', by rw [hev', hev, List.append_assoc], fun f hf => ?_⟩
  exact (List.mem_append.mp hf).elim (hfr f) (hfr' f)

end deliversFrom

theorem syncStep_deliversFrom (s : State) : DeliversFrom c s.rxbuf s (syncStep c s).2 := by
  rcases syncStep_cases c s with ⟨_, e⟩ | ⟨f, len, hok, _, _, e⟩ | ⟨k, _, _, e⟩ <;> rw [e]
  · exact .of_rxev_eq rfl
  · refine .of_event rfl fun f' hf' => ?_
    cases hf'
    obtain ⟨hargs, henc⟩ := encodeFrame_of_tryDecode_ok c hok
    exact ⟨hargs, henc ▸ (List.take_prefix len s.rxbuf).isInfix⟩
  · exact .of_event rfl fun _ hf => nomatch hf

theorem scanStep_rxev (s : State) : (scanStep s).2.rxev = s.rxev := by
  rcases scanStep_cases s with ⟨i, _, e⟩ | ⟨_, e⟩ <;> rw [e] <;> rfl

/-- `DRAIN` delivers from the buffer it starts on: each of its rounds reads an end of that. -/
theorem drain_deliversFrom (s : State) : DeliversFrom c s.rxbuf s (drain c s) := by
  refine (drain_induct c (P := fun t => Advances s t ∧ DeliversFrom c s.rxbuf s t) ?_ ?_ s
    ⟨.refl s, .of_rxev_eq rfl⟩).2
  · intro t ⟨hadv, hdel⟩
    exact ⟨hadv.trans (syncStep_advances c t),
      hdel.trans ((syncStep_deliversFrom c t).mono hadv.suffix.isInfix)⟩
  · intro t ⟨hadv, hdel⟩
    exact ⟨hadv.trans (scanStep_advances t), hdel.trans (.of_rxev_eq (scanStep_rxev t))⟩

/-- A byte received while `OPEN`: frames stood in the bytes held and the byte, and an end of those is what is
held then. -/
theorem rxByteAnswered_deliversFrom (b : Byte) {s : State} (ho : s.status = .opened) :
    DeliversFrom c (s.rxbuf ++ [b]) s (rxByteAnswered c b s) ∧
      (rxByteAnswered c b s).rxbuf <:+ s.rxbuf ++ [b] := by
  unfold rxByteAnswered
  rcases rxByte_cases c b s with ⟨hn, _⟩ | ⟨_, _, e⟩ | ⟨_, _, e⟩
  · exact absurd ho hn
  · rw [e]
    exact ⟨.of_event rfl fun _ hf => (nomatch hf), List.nil_suffix⟩
  · rw [e]
    exact ⟨drain_deliversFrom c (s.append b), (drain_advances c (s.append b)).suffix⟩

/-- The status stays `OPEN` with every byte that does not overflow the buffer. -/
theorem rxByteAnswered_opened (b : Byte) {s : State} (ho : s.status = .opened)
    (h : (rxByte c b s).1 ≠ .rxFatal) : (rxByteAnswered c b s).status = .opened := by
  unfold rxByteAnswered
  rcases rxByte_cases c b s with ⟨hn, _⟩ | ⟨_, _, e⟩ | ⟨_, _, e⟩
  · exact absurd ho hn
  · rw [e] at h
    exact absurd rfl h
  · rw [e]
    exact (drain_status c _).trans ho

theorem rxChunk_deliversFrom_of_opened (bytes : List Byte) {s : State} (ho : s.status = .opened) :
    DeliversFrom c (s.rxbuf ++ bytes) s (rxChunk c bytes s) := by
  induction bytes generalizing s with
  | nil => exact .of_rxev_eq rfl
  | cons b rest ih =>
    obtain ⟨hdel, hsuffix⟩ := rxByteAnswered_deliversFrom c b ho
    rw [List.append_cons]
    have hfirst : DeliversFrom c (s.rxbuf ++ [b] ++ rest) s (rxByteAnswered c b s) :=
      hdel.mono (List.prefix_append _ rest).isInfix
    unfold rxChunk
    split
    · exact hfirst
    · next hnf =>
      have hrest : (rxByteAnswered c b s).rxbuf ++ rest <:+ s.rxbuf ++ [b] ++ rest :=
        List.suffix_append_self_iff.mpr hsuffix
      exact hfirst.trans ((ih (rxByteAnswered_opened c b ho hnf)).mono hrest.isInfix)

/-- Where the status is not `OPEN`, no byte is received (R105). -/
theorem rxChunk_rxev_of_not_opened (bytes : List Byte) {s : State} (hn : s.status ≠ .opened) :
    (rxChunk c bytes s).rxev = s.rxev := by
  refine (rxChunk_induct c (P := fun t => t.status = s.status ∧ t.rxev = s.rxev) ?_ bytes s ⟨rfl, rfl⟩).2
  intro b t ⟨hstatus, hev⟩
  have hrefused : rxByteAnswered c b t = t.answer (.rx .rxRefusedNotOpen) := by
    simp only [rxByteAnswered, rxByte, hstatus, ne_eq, hn, not_false_eq_true, if_true]
  rw [hrefused]
  exact ⟨hstatus, hev⟩

theorem rxChunk_deliversFrom (bytes : List Byte) (s : State) :
    DeliversFrom c (s.rxbuf ++ bytes) s (rxChunk c bytes s) := by
  by_cases ho : s.status = .opened
  · exact rxChunk_deliversFrom_of_opened c bytes ho
  · exact .of_rxev_eq (rxChunk_rxev_of_not_opened c bytes ho)

/-! ### Bytes of an unfinished frame (R110, R111) -/

/-- The byte `b` is received with room in the buffer (R107). -/
theorem rxByteAnswered_of_room (b : Byte) {s : State} (ho : s.status = .opened)
    (hroom : s.rxbuf.length < c.bufMax) :
    rxByteAnswered c b s = (drain c (s.append b)).answer (.rx .rxDone) := by
  unfold rxByteAnswered
  rcases rxByte_cases c b s with ⟨hn, _⟩ | ⟨_, hfull, _⟩ | ⟨_, _, e⟩
  · exact absurd ho hn
  · omega
  · rw [e]

theorem rxByte_fst_of_room (b : Byte) {s : State} (ho : s.status = .opened)
    (hroom : s.rxbuf.length < c.bufMax) : (rxByte c b s).1 ≠ .rxFatal := by
  rcases rxByte_cases c b s with ⟨hn, _⟩ | ⟨_, hfull, _⟩ | ⟨_, _, e⟩
  · exact absurd ho hn
  · omega
  · simp [e]

@[simp] theorem rxChunk_singleton (b : Byte) (s : State) : rxChunk c [b] s = rxByteAnswered c b s := by
  simp only [rxChunk, ite_self]

/-- `s` with `bytes` held behind what it holds, each answered `RxDone`. -/
def State.holding (s : State) (bytes : List Byte) : State :=
  { s with rxbuf := s.rxbuf ++ bytes,
           results := s.results ++ List.replicate bytes.length (.rx .rxDone) }

@[simp] theorem State.holding_rxbuf (s : State) (bytes : List Byte) :
    (s.holding bytes).rxbuf = s.rxbuf ++ bytes := rfl

theorem State.holding_cons (s : State) (b : Byte) (bytes : List Byte) :
    s.holding (b :: bytes) = (s.holding [b]).holding bytes := by
  simp [State.holding, List.replicate_succ]

/-- While no frame can be judged, the received bytes are held, and the rest of a chunk comes behind them. -/
theorem rxChunk_append_of_incomplete (bytes rest : List Byte) {s : State} (ho : s.status = .opened)
    (hm : s.rxmode = .synchronized) (hroom : s.rxbuf.length + bytes.length ≤ c.bufMax)
    (hinc : ∀ p, p <+: bytes → (tryDecode c (s.rxbuf ++ p)).incomplete) :
    rxChunk c (bytes ++ rest) s = rxChunk c rest (s.holding bytes) := by
  induction bytes generalizing s with
  | nil => simp [State.holding]
  | cons b bytes ih =>
    rw [List.length_cons] at hroom
    have hone : rxByteAnswered c b s = s.holding [b] := by
      rw [rxByteAnswered_of_room c b ho (by omega),
        drain_of_incomplete c (s := s.append b) hm (hinc [b] ⟨bytes, rfl⟩)]
      rfl
    rw [List.cons_append, rxChunk, if_neg (rxByte_fst_of_room c b ho (by omega)), hone,
      State.holding_cons s b bytes]
    refine ih (s := s.holding [b]) ho hm (by
      rw [State.holding_rxbuf, List.length_append, List.length_singleton]
      omega) fun p hp => ?_
    simpa using hinc (b :: p) ((List.cons_prefix_cons).mpr ⟨rfl, hp⟩)

/-- `DRAIN` of exactly one whole frame reports it and stops at the empty buffer (R111). -/
theorem drain_of_whole {s : State} {f : Frame} (hm : s.rxmode = .synchronized)
    (h : tryDecode c s.rxbuf = .ok f s.rxbuf.length) :
    drain c s = (s.emit (.frame f)).dropFront s.rxbuf.length := by
  have hagain : drainStep c s = (.again, (s.emit (.frame f)).dropFront s.rxbuf.length) := by
    simp only [drainStep, hm, syncStep, h]
  have hwait : drainStep c ((s.emit (.frame f)).dropFront s.rxbuf.length) =
      (.wait, (s.emit (.frame f)).dropFront s.rxbuf.length) := by
    have hempty : (tryDecode c ((s.emit (.frame f)).dropFront s.rxbuf.length).rxbuf).incomplete :=
      .inl (by simp)
    simp only [drainStep, State.dropFront_rxmode, State.emit_rxmode, hm, syncStep_of_incomplete c hempty]
  exact (drainFuel_again c _ hagain).trans (drainFuel_wait c _ hwait)

end Sys2Proof.Machine
end

section
/-! SUPPORT. What every instruction can do to the receive side, said once; then the statements of
spec/10_state.md: reset (R25), the status view (R22), stream order (R15, R23), quiescence (R24), isolation (R26),
and what is delivered (R16, R121). -/

namespace Sys2Proof.Machine

/-! ### One instruction -/

/-- `t` has the receive side of `s`: buffer, mode, status, base and events. -/
structure SameReceiveSide (s t : State) : Prop where
  rxbuf : t.rxbuf = s.rxbuf
  rxmode : t.rxmode = s.rxmode
  status : t.status = s.status
  rxbase : t.rxbase = s.rxbase
  rxev : t.rxev = s.rxev

theorem SameReceiveSide.answer (s : State) (r : Result) : SameReceiveSide s (s.answer r) :=
  ⟨rfl, rfl, rfl, rfl, rfl⟩

/-- `TX_SEND` leaves the receive side alone, sent or refused (R42, R83, R84). -/
theorem txSend_sameReceiveSide (c : Cfg) (cmd : U16) (args : List I32) (s : State) :
    SameReceiveSide s (txSend c cmd args s).2 := by
  unfold txSend
  split_ifs <;> exact ⟨rfl, rfl, rfl, rfl, rfl⟩

theorem exec_encode_next {cmd : U16} {args : List I32} {s t : State}
    (h : exec (.encode cmd args) s = .next t) :
    t = s.answer (.bytes (encodeFrame Config.cfg cmd args)) := by
  change execEncode cmd args s = .next t at h
  unfold execEncode at h
  split at h <;> cases h
  rfl

/-- What an instruction can do to the receive side of `s`. -/
inductive ReceiveEffect (s : State) : Instr → State → Prop
  | reset : ReceiveEffect s .reset s.restart
  | close : ReceiveEffect s .close (closeConnection s)
  /-- The reception of the bytes that the instruction presents (log entry 2). -/
  | received (i : Instr) : ReceiveEffect s i (rxChunk Config.cfg (presented Config.cfg i) s)
  /-- An internal function run alone (log entry 3), here and in the next two. -/
  | drain : ReceiveEffect s .drain (drain Config.cfg s)
  | syncStep (r : Result) : ReceiveEffect s .syncStep ((syncStep Config.cfg s).2.answer r)
  | scanStep (r : Result) : ReceiveEffect s .scanStep ((scanStep s).2.answer r)
  | untouched {i : Instr} {t : State} (h : SameReceiveSide s t) : ReceiveEffect s i t

/-- Every instruction has one of these effects, whatever the state. -/
theorem exec_receiveEffect {i : Instr} {s t : State} (h : exec i s = .next t) : ReceiveEffect s i t := by
  cases i with
  | frameHdr cmd argCount => cases h; exact .received _
  | frameArg w => cases h; exact .received _
  | frameFtr checksum => cases h; exact .received _
  | frameN0 cmd checksum => cases h; exact .received _
  | reset => cases h; exact .reset
  | close => cases h; exact .close
  | rxByte b =>
    cases h
    have hone := ReceiveEffect.received (s := s) (.rxByte b)
    rwa [presented, rxChunk_singleton] at hone
  | txSend cmd args =>
    cases h
    obtain ⟨hbuf, hmode, hstatus, hbase, hev⟩ := txSend_sameReceiveSide Config.cfg cmd args s
    exact .untouched ⟨hbuf, hmode, hstatus, hbase, hev⟩
  | drain => cases h; exact .drain
  | syncStep => cases h; exact .syncStep _
  | scanStep => cases h; exact .scanStep _
  | tryDecode buffer => cases h; exact .untouched (.answer s _)
  | encode cmd args =>
    rw [exec_encode_next h]
    exact .untouched (.answer s _)
  | ckCompute bytes => cases h; exact .untouched (.answer s _)
  | ckVerify bytes expected => cases h; exact .untouched (.answer s _)
  | rxChunk bytes => cases h; exact .received _
  | rxFrame cmd args =>
    rw [(exec_rxFrame_next h).2]
    exact .received (.rxFrame cmd args)

/-- Every instruction keeps quiescence (R24). -/
theorem exec_quiescent {i : Instr} {s t : State} (hq : Quiescent Config.cfg s)
    (h : exec i s = .next t) : Quiescent Config.cfg t := by
  cases exec_receiveEffect h with
  | reset => exact quiescent_of_released _ rfl rfl
  | close => exact hq.closeConnection
  | received => exact hq.rxChunk _
  | drain => exact hq.drain
  | syncStep r => exact hq.syncStep.congr rfl rfl rfl
  | scanStep r => exact hq.scanStep.congr rfl rfl rfl
  | untouched hs => exact hq.congr hs.rxbuf hs.rxmode hs.status

theorem closeConnection_rxev (s : State) : (closeConnection s).rxev = s.rxev := by
  unfold closeConnection
  split <;> rfl

/-- Every frame an instruction reports stood whole in the bytes held and presented (R121). -/
theorem exec_deliversFrom {i : Instr} {s t : State} (hi : i ≠ .reset) (h : exec i s = .next t) :
    DeliversFrom Config.cfg (s.rxbuf ++ presented Config.cfg i) s t := by
  cases exec_receiveEffect h with
  | reset => exact absurd rfl hi
  | close => exact .of_rxev_eq (closeConnection_rxev s)
  | received => exact rxChunk_deliversFrom _ _ s
  | drain => exact (drain_deliversFrom _ s).mono (List.prefix_append _ _).isInfix
  | syncStep r =>
    obtain ⟨evs, hev, hfr⟩ := (syncStep_deliversFrom Config.cfg s).mono (List.prefix_append _ []).isInfix
    exact ⟨evs, hev, hfr⟩
  | scanStep r => exact .of_rxev_eq (scanStep_rxev s)
  | untouched hs => exact .of_rxev_eq hs.rxev

/-! ### The statements -/

/-- Settles O23: a step is an instruction (`exec_quiescent`) on the state with the line taken off, of which
quiescence reads nothing, or no change. -/
theorem quiescenceIsKeptByEveryStep : Obligations.QuiescenceIsKeptByEveryStep := by
  refine ⟨fun s t hq h => ?_, fun i s t hq h => exec_quiescent hq h⟩
  cases hs : s.script with
  | nil =>
    rw [step_of_script_nil hs] at h
    cases h
    exact hq
  | cons line rest =>
    rw [step_of_script_cons hs] at h
    exact exec_quiescent (s := { s with script := rest }) (hq.congr rfl rfl rfl) h

/-- Settles O11: with room the byte is appended and `DRAIN` only drops from the front (`drain_advances`). -/
theorem receivedBytesStayInStreamOrder : Obligations.ReceivedBytesStayInStreamOrder := by
  intro b s ho hroom
  have hexec : exec (.rxByte b) s = .next ((drain Config.cfg (s.append b)).answer (.rx .rxDone)) :=
    congrArg Host.Outcome.next (rxByteAnswered_of_room Config.cfg b ho hroom)
  obtain ⟨k, hk, hbase, hbuf⟩ := drain_advances Config.cfg (s.append b)
  rw [State.append_rxbase] at hbase
  rw [State.append_rxbuf] at hk hbuf
  rw [List.length_append, List.length_singleton] at hk
  refine ⟨_, hexec, (drain_status _ _).trans ho, drain_txout _ _, drain_script _ _, ?_, ?_, ?_⟩ <;>
    simp only [State.answer_rxbase, State.answer_rxbuf, hbase]
  · omega
  · omega
  · rw [hbuf, Nat.add_sub_cancel_left]

section wholeFrame
variable (c : Cfg) {cmd : U16} {args : List I32} {s : State}

/-- A proper beginning of a frame at an empty buffer is held (R110). -/
theorem rxChunk_take_encodeFrame (ho : s.status = .opened) (hm : s.rxmode = .synchronized)
    (hempty : s.rxbuf = []) (hargs : args.length ≤ Config.maxArgs) (hroom : frameLen args.length ≤ c.bufMax)
    {k : Nat} (hk : k < frameLen args.length) (rest : List Byte) :
    rxChunk c ((encodeFrame c cmd args).take k ++ rest) s =
      rxChunk c rest (s.holding ((encodeFrame c cmd args).take k)) := by
  refine rxChunk_append_of_incomplete c _ rest ho hm ?_ fun p hp => ?_
  · rw [hempty, List.length_nil, Nat.zero_add, List.length_take]
    omega
  · have hpk : p.length ≤ k := hp.length_le.trans (List.length_take_le k _)
    rw [hempty, List.nil_append, List.prefix_iff_eq_take.mp (hp.trans (List.take_prefix k _))]
    exact tryDecode_incomplete_of_take_encodeFrame c hargs (by omega)

/-- The byte that makes the buffer exactly one whole frame delivers it and empties the buffer (R111). -/
theorem rxByteAnswered_of_whole {b : Byte} {f : Frame} (ho : s.status = .opened)
    (hm : s.rxmode = .synchronized) (hroom : s.rxbuf.length < c.bufMax)
    (h : tryDecode c (s.rxbuf ++ [b]) = .ok f (s.rxbuf.length + 1)) :
    rxByteAnswered c b s = { s with
      rxbuf := []
      rxbase := s.rxbase + (s.rxbuf.length + 1)
      rxev := s.rxev ++ [.frame f]
      results := s.results ++ [.rx .rxDone] } := by
  have hlen : (s.append b).rxbuf.length = s.rxbuf.length + 1 := by simp
  rw [rxByteAnswered_of_room c b ho hroom, drain_of_whole c (s := s.append b) hm (by rw [hlen]; exact h)]
  simp [State.dropFront, State.emit, State.append, State.answer]

/-- A whole frame received at an empty buffer is delivered with its last byte (R111). -/
theorem rxChunk_encodeFrame (ho : s.status = .opened) (hm : s.rxmode = .synchronized)
    (hempty : s.rxbuf = []) (hargs : args.length ≤ Config.maxArgs) (hroom : frameLen args.length ≤ c.bufMax) :
    rxChunk c (encodeFrame c cmd args) s = { s with
      rxbase := s.rxbase + frameLen args.length
      rxev := s.rxev ++ [.frame { cmd := cmd, args := args }]
      results := s.results ++ List.replicate (frameLen args.length) (.rx .rxDone) } := by
  have hne : encodeFrame c cmd args ≠ [] := List.ne_nil_of_length_pos (by
    rw [encodeFrame_length, frameLen]
    omega)
  obtain ⟨p, b, hfr⟩ := (List.eq_nil_or_concat' (encodeFrame c cmd args)).resolve_left hne
  have hlen : frameLen args.length = p.length + 1 := by
    rw [← encodeFrame_length c cmd args, hfr, List.length_append, List.length_singleton]
  have hok : tryDecode c (p ++ [b]) = .ok { cmd := cmd, args := args } (p.length + 1) := by
    rw [← hfr, ← hlen]
    simpa using tryDecode_encodeFrame_append c [] hargs
  have hheld : rxChunk c (p ++ [b]) s = rxByteAnswered c b (s.holding p) := by
    simpa [hfr] using
      rxChunk_take_encodeFrame c ho hm hempty hargs hroom (cmd := cmd) (k := p.length) (by omega) [b]
  have hbuf : (s.holding p).rxbuf = p := by simp [hempty]
  rw [hfr, hheld, rxByteAnswered_of_whole c (s := s.holding p) ho hm (by rw [hbuf]; omega)
    (by rw [hbuf]; exact hok), hlen]
  simp [State.holding, hempty, List.replicate_succ']

end wholeFrame

/-- Settles O13: every proper beginning is incomplete and so held, and the last byte completes exactly the frame
that was encoded. -/
theorem frameArrivingAtAnEmptyBufferIsDeliveredOnce :
    Obligations.FrameArrivingAtAnEmptyBufferIsDeliveredOnce := by
  intro cmd args s ho hm hempty hargs hroom
  have hexec : exec (.rxFrame cmd args) s =
      .next (rxChunk Config.cfg (encodeFrame Config.cfg cmd args) s) := if_pos hargs
  refine ⟨hexec.trans (congrArg _ (rxChunk_encodeFrame Config.cfg ho hm hempty hargs hroom)), fun k hk => ?_⟩
  have hlen : ((encodeFrame Config.cfg cmd args).take k).length = k := by
    rw [List.length_take, encodeFrame_length]
    exact Nat.min_eq_left (Nat.le_of_lt hk)
  have hchunk := rxChunk_take_encodeFrame Config.cfg ho hm hempty hargs hroom (cmd := cmd) hk []
  rw [List.append_nil, rxChunk, State.holding, hempty, hlen] at hchunk
  exact congrArg Host.Outcome.next hchunk

/-- Settles O28, by `exec_deliversFrom`; `RESET` empties the trace. -/
theorem everyDeliveredFrameStoodWholeInTheReceivedBytes :
    Obligations.EveryDeliveredFrameStoodWholeInTheReceivedBytes := by
  intro i s t h
  refine ⟨fun hi => ?_, fun hi => ?_⟩
  · subst hi
    cases h
    rfl
  · obtain ⟨evs, hev, hfr⟩ := exec_deliversFrom hi h
    refine ⟨evs, hev, fun f hf => ?_⟩
    obtain ⟨hargs, pre, post, hwhole⟩ := hfr f hf
    exact ⟨hargs, pre, post, hwhole.symm⟩

/-- Settles O1: `RESET` is `State.restart`, whose fields are those of `State.reset`. -/
theorem powerOnAndResetGiveEveryElementItsResetValue :
    Obligations.PowerOnAndResetGiveEveryElementItsResetValue :=
  ⟨⟨rfl, rfl, rfl, rfl, rfl, rfl⟩, fun s => ⟨s.restart, rfl, rfl, rfl, rfl, rfl, rfl, rfl⟩⟩

/-- The reading of the empty stream has not moved (R121). -/
theorem streamWalk_nil (c : Cfg) : streamWalk c [] = { pos := 0, mode := .synchronized, events := [] } := by
  simp only [streamWalk, walkFuel, List.drop_nil, tryDecode_nil]

theorem reset_standsAt_nil (c : Cfg) : StandsAt c [] State.reset := by
  rw [StandsAt, streamWalk_nil]
  exact ⟨rfl, rfl, fun _ => rfl, fun h => (nomatch h), rfl⟩

/-- Settles O25: an empty, synchronized state is quiescent, and the walk over no bytes has not moved. -/
theorem resetStateMeetsTheInvariants : Obligations.ResetStateMeetsTheInvariants :=
  ⟨quiescent_of_released _ rfl rfl, reset_standsAt_nil _, fun _ => ⟨[], reset_standsAt_nil _⟩⟩

/-- Settles O57: the host's action writes back at index `k` alone (`perform_cases`). -/
theorem instancesAreIsolated : Obligations.InstancesAreIsolated := by
  intro sys sys' k line h
  rcases perform_cases h with ⟨_, rfl⟩ | ⟨s, t, _, _, rfl⟩
  · exact ⟨rfl, fun _ _ => rfl⟩
  · exact ⟨List.length_set, fun j hj => List.getElem?_set_ne hj.symm⟩

/-! ### The status view (R22) -/

/-- `STAT.RXLEN` is as wide as it must be to hold `BUF_MAX`, and no wider. -/
theorem rxlenBits_le_iff (bufMax v : Nat) : rxlenBits bufMax ≤ v ↔ bufMax + 1 ≤ 2 ^ v :=
  Nat.clog_le_iff_le_pow (by decide)

theorem RxMode.code_cases (m : RxMode) :
    (m.code = 0 ↔ m = .synchronized) ∧ (m.code = 1 ↔ m = .scanning) := by
  cases m <;> decide

theorem Status.code_cases (st : Status) :
    (st.code = 0 ↔ st = .opened) ∧ (st.code = 1 ↔ st = .fatal) ∧ (st.code = 2 ↔ st = .closed) ∧
      st.code ≠ 3 := by
  cases st <;> decide

/-- Within the cap the length field holds the whole length. -/
theorem stat_rxlen_toNat (c : Cfg) {s : State} (h : Memory.wf c.bufMax s.rxbuf) :
    (s.stat c).rxlen.toNat = s.rxbuf.length := by
  have hwidth : c.bufMax + 1 ≤ 2 ^ rxlenBits c.bufMax := (rxlenBits_le_iff _ _).mp le_rfl
  rw [State.stat, BitVec.toNat_ofNat]
  exact Nat.mod_eq_of_lt (Nat.lt_of_lt_of_le (Nat.lt_succ_of_le h) hwidth)

/-- Settles O60: the width by `rxlenBits_le_iff`, each field by the lemma on its code or its length. -/
theorem statusViewShowsModeStatusAndLength : Obligations.StatusViewShowsModeStatusAndLength :=
  ⟨rxlenBits_le_iff _,
    fun s => ⟨RxMode.code_cases s.rxmode, Status.code_cases s.status, stat_rxlen_toNat _⟩, rfl⟩

end Sys2Proof.Machine
end

section
/-! SUPPORT. The two directions apart from each other (R42): what an instruction does to the
transmit side and to what the host sees, that reception reads the receive side alone, and that the bytes held are
never modified (R37). Then the statements of spec/20_memory.md: the offsets of an encoded frame (R39), the
independence of the directions (R42), held bytes (R37) and the history (R40, R85). -/

namespace Sys2Proof

theorem Instr.eq_of_isRxByte_or_isTxSend {i : Instr} (h : i.isRxByte = true ∨ i.isTxSend = true) :
    (∃ b, i = .rxByte b) ∨ ∃ cmd args, i = .txSend cmd args := by
  cases i with
  | rxByte b => exact .inl ⟨b, rfl⟩
  | txSend cmd args => exact .inr ⟨cmd, args, rfl⟩
  | _ => simp [isRxByte, isTxSend] at h

theorem Instr.eq_of_isTxSend {i : Instr} (h : i.isTxSend = true) : ∃ cmd args, i = .txSend cmd args :=
  match i with
  | .txSend cmd args => ⟨cmd, args, rfl⟩

end Sys2Proof

namespace Sys2Proof.Machine

/-! ### The fields of an encoded frame at their offsets (R39) -/

/-- Settles O36: header and arguments are those of the region the frame begins with, and the footer stands behind
its `8 + 4n` bytes. -/
theorem encodedFrameHasEveryFieldAtItsOffset : Obligations.EncodedFrameHasEveryFieldAtItsOffset := by
  intro c cmd args hargs n f
  have hr : (encodeRegion cmd args).length = 8 + 4 * n := encodeRegion_length cmd args
  have hcovered : f.take (8 + 4 * n) = encodeRegion cmd args := by rw [← hr]; exact List.take_left
  have hfooter (o : Nat) (ho : o + 2 ≤ 6) :
      be16 f (8 + 4 * n + o) = be16 (footerBytes (ckCompute c (encodeRegion cmd args))) o := by
    rw [← be16_footer _ [] hr ho, List.append_nil]
    rfl
  have hfields : argsField f n = args := argsField_encodeRegion cmd args _
  refine ⟨startCode1_encodeRegion cmd args _, startCode2_encodeRegion cmd args _,
    cmdField_encodeRegion cmd args _, countField_encodeRegion cmd args _ hargs, fun k hk => ?_, ?_, ?_, ?_⟩
  · have hget : (argsField f n)[k]? = some args[k] := by rw [hfields]; exact List.getElem?_eq_getElem hk
    simpa [argsField, hk, argField] using hget
  · rw [hcovered]
    exact (hfooter 0 (by omega)).trans (be16_bytes16 _)
  · rw [show 10 + 4 * n = 8 + 4 * n + 2 by omega, hfooter 2 (by omega)]
    exact be16_bytes16 Config.end1
  · rw [show 12 + 4 * n = 8 + 4 * n + 4 by omega, hfooter 4 (by omega)]
    exact be16_bytes16 Config.end2

/-! ### What is not the receive side (R40, R42) -/

/-- From `s` to `t` nothing was sent, nothing pending was taken, and the answers were at most added to. -/
structure KeepsTransmitSide (s t : State) : Prop where
  txout : t.txout = s.txout
  script : t.script = s.script
  results : s.results <+: t.results

section keepsTransmitSide
variable {s t u : State}

theorem KeepsTransmitSide.refl (s : State) : KeepsTransmitSide s s := ⟨rfl, rfl, List.prefix_rfl⟩

theorem KeepsTransmitSide.trans (h : KeepsTransmitSide s t) (h' : KeepsTransmitSide t u) :
    KeepsTransmitSide s u :=
  ⟨h'.txout.trans h.txout, h'.script.trans h.script, h.results.trans h'.results⟩

theorem KeepsTransmitSide.answer (h : KeepsTransmitSide s t) (r : Result) :
    KeepsTransmitSide s (t.answer r) :=
  ⟨h.txout, h.script, h.results.trans (List.prefix_append _ [r])⟩

end keepsTransmitSide

section receiving
variable (c : Cfg)

theorem syncStep_keepsTransmitSide (s : State) : KeepsTransmitSide s (syncStep c s).2 := by
  rcases syncStep_cases c s with ⟨_, e⟩ | ⟨f, len, _, _, _, e⟩ | ⟨k, _, _, e⟩ <;> rw [e] <;>
    exact ⟨rfl, rfl, List.prefix_rfl⟩

theorem scanStep_keepsTransmitSide (s : State) : KeepsTransmitSide s (scanStep s).2 := by
  rcases scanStep_cases s with ⟨i, _, e⟩ | ⟨_, e⟩ <;> rw [e] <;> exact ⟨rfl, rfl, List.prefix_rfl⟩

theorem drain_keepsTransmitSide (s : State) : KeepsTransmitSide s (drain c s) :=
  ⟨drain_txout c s, drain_script c s, (drain_results c s).symm ▸ List.prefix_rfl⟩

theorem rxByteAnswered_keepsTransmitSide (b : Byte) (s : State) :
    KeepsTransmitSide s (rxByteAnswered c b s) := by
  refine KeepsTransmitSide.answer ?_ _
  rcases rxByte_cases c b s with ⟨_, e⟩ | ⟨_, _, e⟩ | ⟨_, _, e⟩ <;> rw [e]
  · exact .refl s
  · exact ⟨rfl, rfl, List.prefix_rfl⟩
  · obtain ⟨htx, hscript, hresults⟩ := drain_keepsTransmitSide c (s.append b)
    exact ⟨htx, hscript, hresults⟩

theorem rxChunk_keepsTransmitSide (bytes : List Byte) (s : State) :
    KeepsTransmitSide s (rxChunk c bytes s) :=
  rxChunk_induct c (P := KeepsTransmitSide s) (fun b t h => h.trans (rxByteAnswered_keepsTransmitSide c b t))
    bytes s (.refl s)

end receiving

theorem closeConnection_keepsTransmitSide (s : State) : KeepsTransmitSide s (closeConnection s) := by
  unfold closeConnection
  split <;> exact ⟨rfl, rfl, List.prefix_rfl⟩

/-- Every instruction but `RESET` and `TX_SEND` leaves the transmit side alone (R42). -/
theorem exec_keepsTransmitSide {i : Instr} {s t : State} (hi : i ≠ .reset) (htx : i.isTxSend = false)
    (h : exec i s = .next t) : KeepsTransmitSide s t := by
  cases i with
  | frameHdr cmd argCount => cases h; exact rxChunk_keepsTransmitSide _ _ s
  | frameArg w => cases h; exact rxChunk_keepsTransmitSide _ _ s
  | frameFtr checksum => cases h; exact rxChunk_keepsTransmitSide _ _ s
  | frameN0 cmd checksum => cases h; exact rxChunk_keepsTransmitSide _ _ s
  | reset => exact absurd rfl hi
  | close => cases h; exact closeConnection_keepsTransmitSide s
  | rxByte b => cases h; exact rxByteAnswered_keepsTransmitSide _ b s
  | txSend cmd args => cases htx
  | drain => cases h; exact drain_keepsTransmitSide _ s
  | syncStep => cases h; exact (syncStep_keepsTransmitSide _ s).answer _
  | scanStep => cases h; exact (scanStep_keepsTransmitSide s).answer _
  | tryDecode buffer => cases h; exact (KeepsTransmitSide.refl s).answer _
  | encode cmd args =>
    rw [exec_encode_next h]
    exact (KeepsTransmitSide.refl s).answer _
  | ckCompute bytes => cases h; exact (KeepsTransmitSide.refl s).answer _
  | ckVerify bytes expected => cases h; exact (KeepsTransmitSide.refl s).answer _
  | rxChunk bytes => cases h; exact rxChunk_keepsTransmitSide _ _ s
  | rxFrame cmd args =>
    rw [(exec_rxFrame_next h).2]
    exact rxChunk_keepsTransmitSide _ _ s

/-- `TX_SEND` appends some bytes to `TXOUT`, none when refused, and answers once (R83, R84). -/
theorem exec_txSend_next {cmd : U16} {args : List I32} {s t : State}
    (h : exec (.txSend cmd args) s = .next t) : ∃ bytes r, t = (s.send bytes).answer r := by
  cases h
  have hsend : ∃ bytes, (txSend Config.cfg cmd args s).2 = s.send bytes := by
    have hnone : s = s.send [] := by simp [State.send]
    unfold txSend
    split_ifs
    · exact ⟨[], hnone⟩
    · exact ⟨[], hnone⟩
    · exact ⟨_, rfl⟩
  obtain ⟨bytes, e⟩ := hsend
  exact ⟨bytes, _, congrArg (State.answer · _) e⟩

theorem exec_txSend_sameReceiveSide {cmd : U16} {args : List I32} {s t : State}
    (h : exec (.txSend cmd args) s = .next t) : SameReceiveSide s t := by
  obtain ⟨bytes, r, rfl⟩ := exec_txSend_next h
  exact ⟨rfl, rfl, rfl, rfl, rfl⟩

/-- Settles O54: `TX_SEND` by `exec_txSend_next`, each pure function is one answer, and every other instruction
but `RESET` by `exec_keepsTransmitSide`. -/
theorem eachSideLeavesTheOtherUnchanged : Obligations.EachSideLeavesTheOtherUnchanged := by
  intro i s t h
  refine ⟨?_, fun htx => ?_, fun hpure => ?_, fun hi htx => (exec_keepsTransmitSide hi htx h).txout⟩
  · by_cases hi : i = .reset
    · subst hi
      cases h
      rfl
    cases htx : i.isTxSend with
    | false => exact (exec_keepsTransmitSide hi htx h).script
    | true =>
      obtain ⟨cmd, args, rfl⟩ := Instr.eq_of_isTxSend htx
      obtain ⟨bytes, r, rfl⟩ := exec_txSend_next h
      rfl
  · obtain ⟨cmd, args, rfl⟩ := Instr.eq_of_isTxSend htx
    obtain ⟨bytes, r, rfl⟩ := exec_txSend_next h
    rfl
  · rcases hpure with ⟨b, rfl⟩ | ⟨cmd, args, rfl⟩ | ⟨b, rfl⟩ | ⟨b, e, rfl⟩
    · cases h
      rfl
    · rw [exec_encode_next h]
      rfl
    · cases h
      rfl
    · cases h
      rfl

/-- Settles O56: the events by `exec_deliversFrom`, the rest by `exec_keepsTransmitSide`; `TX_SEND` only
appends. -/
theorem historyIsNeverWithdrawn : Obligations.HistoryIsNeverWithdrawn := by
  intro i s t h hi
  obtain ⟨evs, hev, _⟩ := exec_deliversFrom hi h
  refine ⟨⟨evs, hev.symm⟩, ?_⟩
  cases htx : i.isTxSend with
  | false =>
    obtain ⟨htxout, _, hresults⟩ := exec_keepsTransmitSide hi htx h
    exact ⟨htxout.symm ▸ List.prefix_rfl, hresults⟩
  | true =>
    obtain ⟨cmd, args, rfl⟩ := Instr.eq_of_isTxSend htx
    obtain ⟨bytes, r, rfl⟩ := exec_txSend_next h
    exact ⟨List.prefix_append _ bytes, List.prefix_append _ [r]⟩

/-! ### Held bytes (R15, R37) -/

/-- `streamByte` reads the buffer and its base alone. -/
theorem streamByte_congr {s t : State} (hbase : t.rxbase = s.rxbase) (hbuf : t.rxbuf = s.rxbuf) (a : Nat) :
    t.streamByte a = s.streamByte a := by
  rw [State.streamByte, State.streamByte, hbase, hbuf]

/-- From `s` to `t` neither end of the buffer went back in the received stream, and every byte of `s` that is
still held reads as it did. -/
structure KeepsHeldBytes (s t : State) : Prop where
  base_le : s.rxbase ≤ t.rxbase
  end_le : s.rxbase + s.rxbuf.length ≤ t.rxbase + t.rxbuf.length
  streamByte_eq : ∀ a, t.rxbase ≤ a → a < s.rxbase + s.rxbuf.length → t.streamByte a = s.streamByte a

theorem KeepsHeldBytes.trans {s t u : State} (h : KeepsHeldBytes s t) (h' : KeepsHeldBytes t u) :
    KeepsHeldBytes s u where
  base_le := h.base_le.trans h'.base_le
  end_le := h.end_le.trans h'.end_le
  streamByte_eq a ha hend :=
    (h'.streamByte_eq a ha (hend.trans_le h.end_le)).trans (h.streamByte_eq a (h'.base_le.trans ha) hend)

theorem KeepsHeldBytes.append (s : State) (b : Byte) : KeepsHeldBytes s (s.append b) where
  base_le := le_rfl
  end_le := by simp
  streamByte_eq _ _ hend := streamByte_append_old s b hend

/-- Dropping from the front keeps the rest of the buffer (`streamByte_dropFront`). -/
theorem Advances.keepsHeldBytes {s t : State} (h : Advances s t) : KeepsHeldBytes s t := by
  obtain ⟨k, hk, hbase, hbuf⟩ := h
  refine ⟨by omega, ?_, fun a ha _ => ?_⟩
  · rw [hbase, hbuf, List.length_drop]
    omega
  · exact (streamByte_congr (s := s.dropFront k) hbase hbuf a).trans (streamByte_dropFront s k (hbase ▸ ha))

theorem SameReceiveSide.advances {s t : State} (h : SameReceiveSide s t) : Advances s t :=
  ⟨0, Nat.zero_le _, h.rxbase, h.rxbuf⟩

section heldBytes
variable (c : Cfg)

/-- A byte that is not answered `RxFatal` leaves the status and modifies no held byte. -/
theorem rxByteAnswered_keepsHeldBytes (b : Byte) {s : State} (h : (rxByte c b s).1 ≠ .rxFatal) :
    (rxByteAnswered c b s).status = s.status ∧ KeepsHeldBytes s (rxByteAnswered c b s) := by
  unfold rxByteAnswered
  rcases rxByte_cases c b s with ⟨_, e⟩ | ⟨_, _, e⟩ | ⟨_, _, e⟩
  · rw [e]
    exact ⟨rfl, (SameReceiveSide.answer s _).advances.keepsHeldBytes⟩
  · rw [e] at h
    exact absurd rfl h
  · rw [e]
    have hdrain : Advances (s.append b) ((drain c (s.append b)).answer (.rx .rxDone)) :=
      (drain_advances c _).trans (SameReceiveSide.answer _ _).advances
    exact ⟨drain_status c _, (KeepsHeldBytes.append s b).trans hdrain.keepsHeldBytes⟩

/-- The byte answered `RxFatal` changes the status (R106, R151). -/
theorem rxByteAnswered_status_ne_of_rxFatal {b : Byte} {s : State} (h : (rxByte c b s).1 = .rxFatal) :
    (rxByteAnswered c b s).status ≠ s.status := by
  unfold rxByteAnswered
  rcases rxByte_cases c b s with ⟨_, e⟩ | ⟨ho, _, e⟩ | ⟨_, _, e⟩ <;> rw [e] at h ⊢
  · cases h
  · simp [ho]
  · cases h

theorem rxChunk_keepsHeldBytes (bytes : List Byte) {s : State}
    (h : (rxChunk c bytes s).status = s.status) : KeepsHeldBytes s (rxChunk c bytes s) := by
  induction bytes generalizing s with
  | nil => exact (Advances.refl s).keepsHeldBytes
  | cons b rest ih =>
    rw [rxChunk] at h ⊢
    split at h
    next hfatal => exact absurd h (rxByteAnswered_status_ne_of_rxFatal c hfatal)
    next hfatal =>
      rw [if_neg hfatal]
      obtain ⟨hstatus, hkeep⟩ := rxByteAnswered_keepsHeldBytes c b hfatal
      exact hkeep.trans (ih (h.trans hstatus.symm))

end heldBytes

/-- Settles O55: what an instruction does to the receive side either receives bytes or only drops from the front;
`CLOSE` clears the buffer only together with a new status. -/
theorem heldBytesAreNeverModified : Obligations.HeldBytesAreNeverModified := by
  intro i s t a h hi hstatus
  suffices hkeep : KeepsHeldBytes s t from hkeep.streamByte_eq a
  cases exec_receiveEffect h with
  | reset => exact absurd rfl hi
  | close =>
    unfold closeConnection at hstatus ⊢
    split at hstatus
    next ho => simp [ho] at hstatus
    next ho =>
      rw [if_neg ho]
      exact (Advances.refl s).keepsHeldBytes
  | received => exact rxChunk_keepsHeldBytes _ _ hstatus
  | drain => exact (drain_advances _ s).keepsHeldBytes
  | syncStep r =>
    exact ((syncStep_advances _ s).trans (SameReceiveSide.answer _ r).advances).keepsHeldBytes
  | scanStep r => exact ((scanStep_advances s).trans (SameReceiveSide.answer _ r).advances).keepsHeldBytes
  | untouched hs => exact hs.advances.keepsHeldBytes

/-! ### Reception reads the receive side alone (R42)

Each function of the receive side, run on two states with the same receive side, answers the same and leaves
them with the same receive side. -/

section congruence
variable {s t u : State}

theorem SameReceiveSide.symm (h : SameReceiveSide s t) : SameReceiveSide t s :=
  ⟨h.rxbuf.symm, h.rxmode.symm, h.status.symm, h.rxbase.symm, h.rxev.symm⟩

theorem SameReceiveSide.trans (h : SameReceiveSide s t) (h' : SameReceiveSide t u) : SameReceiveSide s u :=
  ⟨h'.rxbuf.trans h.rxbuf, h'.rxmode.trans h.rxmode, h'.status.trans h.status, h'.rxbase.trans h.rxbase,
    h'.rxev.trans h.rxev⟩

theorem SameReceiveSide.append (h : SameReceiveSide s t) (b : Byte) :
    SameReceiveSide (s.append b) (t.append b) :=
  ⟨congrArg (· ++ [b]) h.rxbuf, h.rxmode, h.status, h.rxbase, h.rxev⟩

theorem SameReceiveSide.emit (h : SameReceiveSide s t) (e : Event) : SameReceiveSide (s.emit e) (t.emit e) :=
  ⟨h.rxbuf, h.rxmode, h.status, h.rxbase, congrArg (· ++ [e]) h.rxev⟩

theorem SameReceiveSide.dropFront (h : SameReceiveSide s t) (k : Nat) :
    SameReceiveSide (s.dropFront k) (t.dropFront k) :=
  ⟨congrArg (List.drop k) h.rxbuf, h.rxmode, h.status, congrArg (· + k) h.rxbase, h.rxev⟩

theorem SameReceiveSide.setMode (h : SameReceiveSide s t) (m : RxMode) :
    SameReceiveSide (s.setMode m) (t.setMode m) :=
  ⟨h.rxbuf, rfl, h.status, h.rxbase, h.rxev⟩

theorem SameReceiveSide.raiseWarn (h : SameReceiveSide s t) (k : WarnKind) :
    SameReceiveSide (s.raiseWarn k) (t.raiseWarn k) :=
  ((h.emit (.warn k)).setMode .scanning).dropFront 1

theorem SameReceiveSide.resumeAt (h : SameReceiveSide s t) (i : Nat) :
    SameReceiveSide (s.resumeAt i) (t.resumeAt i) :=
  (h.dropFront i).setMode .synchronized

theorem SameReceiveSide.raiseFatal (h : SameReceiveSide s t) (k : FatalCause) :
    SameReceiveSide (s.raiseFatal k) (t.raiseFatal k) :=
  ⟨rfl, rfl, rfl, h.rxbase, (h.emit (.fatal k)).rxev⟩

variable (c : Cfg)

theorem SameReceiveSide.syncStep (h : SameReceiveSide s t) :
    (syncStep c t).1 = (syncStep c s).1 ∧ SameReceiveSide (syncStep c s).2 (syncStep c t).2 := by
  unfold Machine.syncStep
  rw [h.rxbuf]
  cases tryDecode c s.rxbuf with
  | incompleteHeader => exact ⟨rfl, h⟩
  | incompleteBody => exact ⟨rfl, h⟩
  | ok f len => exact ⟨rfl, (h.emit (.frame f)).dropFront len⟩
  | badStartCode => exact ⟨rfl, h.raiseWarn .badStartCode⟩
  | badEndCode => exact ⟨rfl, h.raiseWarn .badEndCode⟩
  | checksumMismatch => exact ⟨rfl, h.raiseWarn .checksumMismatch⟩

theorem SameReceiveSide.scanStep (h : SameReceiveSide s t) :
    (scanStep t).1 = (scanStep s).1 ∧ SameReceiveSide (scanStep s).2 (scanStep t).2 := by
  unfold Machine.scanStep
  rw [h.rxbuf]
  cases findStart s.rxbuf with
  | some i => exact ⟨rfl, h.resumeAt i⟩
  | none => exact ⟨rfl, h.dropFront _⟩

theorem SameReceiveSide.drainStep (h : SameReceiveSide s t) :
    (drainStep c t).1 = (drainStep c s).1 ∧ SameReceiveSide (drainStep c s).2 (drainStep c t).2 := by
  unfold Machine.drainStep
  rw [h.rxmode]
  cases s.rxmode with
  | synchronized => exact h.syncStep c
  | scanning => exact h.scanStep

theorem SameReceiveSide.drainFuel (fuel : Nat) (h : SameReceiveSide s t) :
    SameReceiveSide (drainFuel c fuel s) (drainFuel c fuel t) := by
  induction fuel generalizing s t with
  | zero => exact h
  | succ fuel ih =>
    obtain ⟨hres, hside⟩ := h.drainStep c
    rcases hs : Machine.drainStep c s with ⟨rs, s'⟩
    rcases ht : Machine.drainStep c t with ⟨rt, t'⟩
    rw [hs, ht] at hres hside
    subst hres
    cases rt with
    | wait => rwa [drainFuel_wait c fuel hs, drainFuel_wait c fuel ht]
    | again =>
      rw [drainFuel_again c fuel hs, drainFuel_again c fuel ht]
      exact ih hside

theorem SameReceiveSide.drain (h : SameReceiveSide s t) : SameReceiveSide (drain c s) (drain c t) := by
  unfold Machine.drain
  rw [h.rxbuf]
  exact h.drainFuel c _

theorem SameReceiveSide.rxByteAnswered (h : SameReceiveSide s t) (b : Byte) :
    SameReceiveSide (rxByteAnswered c b s) (rxByteAnswered c b t) := by
  suffices hside : SameReceiveSide (rxByte c b s).2 (rxByte c b t).2 from
    (SameReceiveSide.answer _ _).symm.trans (hside.trans (.answer _ _))
  unfold rxByte
  rw [h.status, h.rxbuf]
  split_ifs
  · exact h
  · exact h.raiseFatal .bufferOverflow
  · exact (h.append b).drain c

end congruence

/-! ### The directions of a run (R42) -/

theorem execAll_cons_of_next {i : Instr} {s u : State} (h : exec i s = .next u) (rest : List Instr) :
    execAll (i :: rest) s = execAll rest u := by
  simp only [execAll, h]

theorem execAll_cons_next {i : Instr} {rest : List Instr} {s t : State}
    (h : execAll (i :: rest) s = .next t) : ∃ u, exec i s = .next u ∧ execAll rest u = .next t := by
  cases hi : exec i s with
  | next u => exact ⟨u, rfl, (execAll_cons_of_next hi rest).symm.trans h⟩
  | fault r => simp [execAll, hi] at h
  | refused r => simp [execAll, hi] at h

/-- The received bytes of a run have the same effect on the receive side alone as among the sendings. -/
theorem execAll_filter_isRxByte {ops : List Instr} {s t u : State}
    (hops : ∀ i ∈ ops, i.isRxByte = true ∨ i.isTxSend = true) (hside : SameReceiveSide s u)
    (h : execAll ops s = .next t) :
    ∃ u', execAll (ops.filter Instr.isRxByte) u = .next u' ∧ SameReceiveSide t u' := by
  induction ops generalizing s u with
  | nil =>
    cases h
    exact ⟨u, rfl, hside⟩
  | cons i rest ih =>
    obtain ⟨hi, hrest⟩ := List.forall_mem_cons.mp hops
    obtain ⟨s', hs', hrun⟩ := execAll_cons_next h
    rcases Instr.eq_of_isRxByte_or_isTxSend hi with ⟨b, rfl⟩ | ⟨cmd, args, rfl⟩
    · cases hs'
      rw [List.filter_cons_of_pos rfl, execAll_cons_of_next rfl]
      exact ih hrest (hside.rxByteAnswered _ b) hrun
    · exact ih hrest ((exec_txSend_sameReceiveSide hs').symm.trans hside) hrun

/-- Neither a received byte nor a sending leads back to `OPEN`. -/
theorem execAll_opened_of_opened {ops : List Instr} {s t : State}
    (hops : ∀ i ∈ ops, i.isRxByte = true ∨ i.isTxSend = true) (h : execAll ops s = .next t)
    (ho : t.status = .opened) : s.status = .opened := by
  induction ops generalizing s with
  | nil =>
    cases h
    exact ho
  | cons i rest ih =>
    obtain ⟨hi, hrest⟩ := List.forall_mem_cons.mp hops
    obtain ⟨s', hs', hrun⟩ := execAll_cons_next h
    have ho' : s'.status = .opened := ih hrest hrun
    rcases Instr.eq_of_isRxByte_or_isTxSend hi with ⟨b, rfl⟩ | ⟨cmd, args, rfl⟩
    · cases hs'
      rcases rxByte_cases Config.cfg b s with ⟨_, e⟩ | ⟨hs, _, _⟩ | ⟨hs, _, _⟩
      · rwa [rxByteAnswered, e] at ho'
      · exact hs
      · exact hs
    · exact (exec_txSend_sameReceiveSide hs').status.symm.trans ho'

/-- `TX_SEND` reads the status and `TXOUT` alone (R83, R84). -/
theorem txSend_txout_congr (c : Cfg) (cmd : U16) (args : List I32) {s v : State}
    (hstatus : v.status = s.status) (htxout : v.txout = s.txout) :
    (txSend c cmd args v).2.txout = (txSend c cmd args s).2.txout := by
  unfold txSend
  rw [hstatus]
  split_ifs
  · exact htxout
  · exact htxout
  · exact congrArg (· ++ encodeFrame c cmd args) htxout

/-- The sendings of a run that ends `OPEN` write the same alone as among the received bytes. -/
theorem execAll_filter_isTxSend {ops : List Instr} {s t v : State}
    (hops : ∀ i ∈ ops, i.isRxByte = true ∨ i.isTxSend = true) (h : execAll ops s = .next t)
    (ho : t.status = .opened) (hv : v.status = .opened) (htxout : v.txout = s.txout) :
    ∃ v', execAll (ops.filter Instr.isTxSend) v = .next v' ∧ v'.txout = t.txout := by
  induction ops generalizing s v with
  | nil =>
    cases h
    exact ⟨v, rfl, htxout⟩
  | cons i rest ih =>
    have hs : s.status = .opened := execAll_opened_of_opened hops h ho
    obtain ⟨hi, hrest⟩ := List.forall_mem_cons.mp hops
    obtain ⟨s', hs', hrun⟩ := execAll_cons_next h
    rcases Instr.eq_of_isRxByte_or_isTxSend hi with ⟨b, rfl⟩ | ⟨cmd, args, rfl⟩
    · cases hs'
      exact ih hrest hrun hv (htxout.trans (rxByteAnswered_keepsTransmitSide _ b s).txout.symm)
    · cases hs'
      rw [List.filter_cons_of_pos rfl, execAll_cons_of_next rfl]
      exact ih hrest hrun ((txSend_sameReceiveSide _ cmd args v).status.trans hv)
        (txSend_txout_congr _ cmd args (hv.trans hs.symm) htxout)

/-- Settles O40: sending leaves the receive side and receiving the transmit side, and `OPEN` at the end was `OPEN`
throughout. -/
theorem directionsDoNotInterfere : Obligations.DirectionsDoNotInterfere := by
  intro ops s t hops h ho
  obtain ⟨u, hu, hside⟩ := execAll_filter_isRxByte hops ⟨rfl, rfl, rfl, rfl, rfl⟩ h
  obtain ⟨v, hv, htxout⟩ := execAll_filter_isTxSend hops h ho (execAll_opened_of_opened hops h ho) rfl
  exact ⟨u, v, hu, hv, hside.rxev, hside.rxbuf, hside.rxmode, hside.rxbase, htxout⟩

end Sys2Proof.Machine
end

section
/-! SUPPORT. The statements of spec/30_encoding.md. Words as fields put together (R51, R53, R55), the decoder of the
frame-format rows as one equation per row length, and the rows written again from their fields (R50 to R53); then
well-formed frames against `TRYDECODE` (R57, R101), and the row `FRAME.N0` at an empty buffer. -/

namespace Sys2Proof

/-! ### Words put together from fields -/

theorem append_eq_append_iff {v w : Nat} {a a' : BitVec v} {b b' : BitVec w} :
    a ++ b = a' ++ b' ↔ a = a' ∧ b = b' := by
  refine ⟨fun h => ⟨?_, ?_⟩, fun ⟨ha, hb⟩ => by rw [ha, hb]⟩
  · rw [← BitVec.extractLsb'_append_eq_left (a := a) (b := b), h, BitVec.extractLsb'_append_eq_left]
  · rw [← BitVec.extractLsb'_append_eq_right (a := a) (b := b), h, BitVec.extractLsb'_append_eq_right]

/-- A mask over the upper part of a word compares that part. -/
theorem and_high_mask_eq_iff {v w : Nat} (a k : BitVec v) (b : BitVec w) :
    (a ++ b) &&& (BitVec.allOnes v ++ 0#w) = k ++ 0#w ↔ a = k := by
  rw [BitVec.and_append, BitVec.and_allOnes, BitVec.and_zero, BitVec.append_left_inj]

/-- A mask over the lower part of a word compares that part. -/
theorem and_low_mask_eq_iff {v w : Nat} (a : BitVec v) (b k : BitVec w) :
    (a ++ b) &&& (0#v ++ BitVec.allOnes w) = 0#v ++ k ↔ b = k := by
  rw [BitVec.and_append, BitVec.and_allOnes, BitVec.and_zero, BitVec.append_right_inj]

/-- The first byte of a u16 counts 256 times the second (R55). -/
theorem be16_toNat (s : List Byte) (o : Nat) :
    (be16 s o).toNat = (byteAt s o).toNat * 256 + (byteAt s (o + 1)).toNat := by
  rw [be16, BitVec.toNat_append, ← Nat.shiftLeft_add_eq_or_of_lt (byteAt s (o + 1)).isLt, Nat.shiftLeft_eq]

/-! ### Start and end codes -/

theorem startAt_iff {s : List Byte} {o : Nat} :
    startAt s o = true ↔ be16 s o = Config.start1 ∧ be16 s (o + 2) = Config.start2 := by
  simp [startAt]

theorem endAt_iff {s : List Byte} {o : Nat} :
    endAt s o = true ↔ be16 s o = Config.end1 ∧ be16 s (o + 2) = Config.end2 := by
  simp [endAt]

/-- The start codes as one 32-bit word (R51). -/
theorem be32_eq_start_iff {s : List Byte} {o : Nat} :
    be32 s o = Config.start1 ++ Config.start2 ↔ startAt s o = true := by
  rw [be32, append_eq_append_iff, startAt_iff]

/-- The end codes as one 32-bit word (R53). -/
theorem be32_eq_end_iff {s : List Byte} {o : Nat} :
    be32 s o = Config.end1 ++ Config.end2 ↔ endAt s o = true := by
  rw [be32, append_eq_append_iff, endAt_iff]

/-- The end codes are good exactly where their four bytes are `END` (R57, R95). -/
theorem endAt_iff_take {s : List Byte} {o : Nat} (h : o + 4 ≤ s.length) :
    endAt s o = true ↔ (s.drop o).take 4 = Config.endBytes := by
  rw [take_four_drop h, ← be32_eq_end_iff]
  refine ⟨fun he => by rw [he]; decide, fun he => ?_⟩
  calc be32 s o = be32 (argBytes (be32 s o)) 0 := (be32_bytes32 _).symm
    _ = Config.end1 ++ Config.end2 := by rw [he]; decide

/-- The header word passes the mask of R51 exactly where it begins with the start codes. -/
theorem be64_mask_iff (s : List Byte) :
    be64 s 0 &&& 0xFFFFFFFF00000000#64 = 0xEB905B6A00000000#64 ↔ startAt s 0 = true := by
  rw [← be32_eq_start_iff]
  exact and_high_mask_eq_iff (be32 s 0) (Config.start1 ++ Config.start2) (be32 s 4)

/-- The footer word passes the mask of R53 exactly where it ends with the end codes. -/
theorem be48_mask_iff (s : List Byte) :
    be48 s 0 &&& 0x0000FFFFFFFF#48 = 0x0000C5A4D279#48 ↔ endAt s 2 = true := by
  rw [← be32_eq_end_iff]
  exact and_low_mask_eq_iff (be16 s 0) (be32 s 2) (Config.end1 ++ Config.end2)

theorem be32_high (s : List Byte) (o : Nat) : (be32 s o).extractLsb' 16 16 = be16 s o :=
  BitVec.extractLsb'_append_eq_left

theorem be32_low (s : List Byte) (o : Nat) : (be32 s o).extractLsb' 0 16 = be16 s (o + 2) :=
  BitVec.extractLsb'_append_eq_right

/-- The bit ranges of the header word (R51). -/
theorem be64_fields (s : List Byte) :
    (be64 s 0).extractLsb' 48 16 = be16 s 0 ∧ (be64 s 0).extractLsb' 32 16 = be16 s 2 ∧
      (be64 s 0).extractLsb' 16 16 = be16 s 4 ∧ (be64 s 0).extractLsb' 0 16 = be16 s 6 :=
  ⟨(BitVec.extractLsb'_append_eq_of_le (by decide)).trans (be32_high s 0),
    (BitVec.extractLsb'_append_eq_of_le (by decide)).trans (be32_low s 0),
    (BitVec.extractLsb'_append_eq_of_add_le (by decide)).trans (be32_high s 4),
    (BitVec.extractLsb'_append_eq_of_add_le (by decide)).trans (be32_low s 4)⟩

/-- The bit ranges of the footer word (R53). -/
theorem be48_fields (s : List Byte) :
    (be48 s 0).extractLsb' 32 16 = be16 s 0 ∧ (be48 s 0).extractLsb' 16 16 = be16 s 2 ∧
      (be48 s 0).extractLsb' 0 16 = be16 s 4 :=
  ⟨BitVec.extractLsb'_append_eq_left,
    (BitVec.extractLsb'_append_eq_of_add_le (by decide)).trans (be32_high s 2),
    (BitVec.extractLsb'_append_eq_of_add_le (by decide)).trans (be32_low s 2)⟩

/-! ### The decoder, one equation per row length (R50 to R53) -/

theorem decode_of_length_four {bytes : List Byte} (h : bytes.length = 4) :
    decode bytes = .ok (.frameArg (be32 bytes 0)) := if_pos h

theorem decode_of_length_six {bytes : List Byte} (h : bytes.length = 6) :
    decode bytes = if endAt bytes 2 then .ok (.frameFtr (be16 bytes 0)) else .error .badEndCode := by
  simp [decode, h]

theorem decode_of_length_eight {bytes : List Byte} (h : bytes.length = 8) :
    decode bytes =
      if startAt bytes 0 then .ok (.frameHdr (be16 bytes 4) (be16 bytes 6)) else .error .badStartCode := by
  simp [decode, h]

theorem decode_of_length_fourteen {bytes : List Byte} (h : bytes.length = 14) (hs : startAt bytes 0 = true)
    (hn : be16 bytes 6 = 0) (he : endAt bytes 10 = true) :
    decode bytes = .ok (.frameN0 (be16 bytes 4) (be16 bytes 8)) := by
  simp [decode, h, hs, hn, he]

/-! ### Rows and their encodings -/

/-- The encoding of a row decodes to it. -/
theorem decode_of_encode {i : Instr} {bytes : List Byte} (h : encode i = some bytes) :
    decode bytes = .ok i := by
  cases i with
  | frameHdr cmd n =>
    cases h
    have hs : startAt (headerBytes cmd n) 0 = true :=
      startAt_iff.mpr ⟨be16_bytes16 Config.start1, be16_bytes16 Config.start2⟩
    have hcmd : be16 (headerBytes cmd n) 4 = cmd := be16_bytes16 cmd
    have hcount : be16 (headerBytes cmd n) 6 = n := be16_bytes16 n
    rw [decode_of_length_eight rfl, if_pos hs, hcmd, hcount]
  | frameArg w =>
    cases h
    rw [decode_of_length_four rfl, argBytes, be32_bytes32]
  | frameFtr k =>
    cases h
    have he : endAt (footerBytes k) 2 = true :=
      endAt_iff.mpr ⟨be16_bytes16 Config.end1, be16_bytes16 Config.end2⟩
    have hsum : be16 (footerBytes k) 0 = k := be16_bytes16 k
    rw [decode_of_length_six rfl, if_pos he, hsum]
  | frameN0 cmd k =>
    cases h
    have hcmd : be16 (headerBytes cmd 0 ++ footerBytes k) 4 = cmd := be16_bytes16 cmd
    have hsum : be16 (headerBytes cmd 0 ++ footerBytes k) 8 = k := be16_bytes16 k
    have hs : startAt (headerBytes cmd 0 ++ footerBytes k) 0 = true :=
      startAt_iff.mpr ⟨be16_bytes16 Config.start1, be16_bytes16 Config.start2⟩
    have he : endAt (headerBytes cmd 0 ++ footerBytes k) 10 = true :=
      endAt_iff.mpr ⟨be16_bytes16 Config.end1, be16_bytes16 Config.end2⟩
    have hcount : be16 (headerBytes cmd 0 ++ footerBytes k) 6 = 0 := be16_bytes16 0
    rw [decode_of_length_fourteen rfl hs hcount he, hcmd, hsum]
  | _ => cases h

/-- A header row's bytes, written again from its fields. -/
theorem headerBytes_be16 {s : List Byte} (h : 8 ≤ s.length) (hs : startAt s 0 = true) :
    headerBytes (be16 s 4) (be16 s 6) = s.take 8 :=
  Machine.headerBytes_eq_take h (startAt_iff.mp hs).1 (startAt_iff.mp hs).2

/-- A footer row's bytes, written again from its checksum field. -/
theorem footerBytes_be16 {s : List Byte} {o : Nat} (h : o + 6 ≤ s.length) (he : endAt s (o + 2) = true) :
    footerBytes (be16 s o) = (s.drop o).take 6 := by
  obtain ⟨h1, h2⟩ := endAt_iff.mp he
  rw [footerBytes, ← h1, ← h2, ← take_two_drop (by omega), ← take_two_drop (by omega),
    ← take_two_drop (by omega), Nat.add_assoc, ← List.drop_drop, ← List.drop_drop, ← List.take_add,
    ← List.take_add]

/-- Bytes that decode are the encoding of what they decode to. -/
theorem encode_of_decode {i : Instr} {bytes : List Byte} (h : decode bytes = .ok i) :
    encode i = some bytes := by
  rcases decode_ok_cases h with
    ⟨hlen, rfl⟩ | ⟨hlen, he, rfl⟩ | ⟨hlen, hs, rfl⟩ | ⟨hlen, hs, hn, he, rfl⟩ <;>
    refine congrArg some ?_
  · rw [← take_four_drop (by omega), List.drop_zero, ← hlen, List.take_length]
  · rw [footerBytes_be16 (by omega) he, List.drop_zero, ← hlen, List.take_length]
  · rw [headerBytes_be16 (by omega) hs, ← hlen, List.take_length]
  · rw [← hn, headerBytes_be16 (by omega) hs, footerBytes_be16 (by omega) he, ← List.take_add,
      List.take_of_length_le (by omega)]

/-- Settles O43: the two directions are `decode_of_encode` and `encode_of_decode`. -/
theorem rowsDecodeExactlyFromTheirEncodings : Obligations.RowsDecodeExactlyFromTheirEncodings :=
  fun _ _ => ⟨decode_of_encode, encode_of_decode⟩

/-- Settles O44: at each of the two lengths the decoder tests the codes (`decode_of_length_eight`,
`decode_of_length_six`), which is the test of the mask. -/
theorem headerAndFooterAreRecognisedByTheirMasks : Obligations.HeaderAndFooterAreRecognisedByTheirMasks := by
  refine ⟨fun bytes hlen => ?_, fun bytes hlen => ?_⟩
  · obtain ⟨hstart1, hstart2, hcmd, hcount⟩ := be64_fields bytes
    simp only [Machine.headerWord, be64_mask_iff, hstart1, hstart2, hcmd, hcount,
      decode_of_length_eight hlen]
    by_cases hs : startAt bytes 0 = true
    · obtain ⟨h1, h2⟩ := startAt_iff.mp hs
      simp [hs, h1, h2, Config.start1, Config.start2]
    · simp [hs]
  · obtain ⟨hsum, hend1, hend2⟩ := be48_fields bytes
    simp only [be48_mask_iff, hsum, hend1, hend2, decode_of_length_six hlen]
    by_cases he : endAt bytes 2 = true
    · obtain ⟨h1, h2⟩ := endAt_iff.mp he
      simp [he, h1, h2, Config.end1, Config.end2]
    · simp [he]

/-- Settles O46, by `be16_toNat` and `bytes16_be16`; both bytes are present. -/
theorem sixteenBitFieldsAreBigEndian : Obligations.SixteenBitFieldsAreBigEndian := by
  intro s o h
  have hfirst : byteAt s o = s[o] := List.getD_eq_getElem s 0 (by omega)
  have hsecond : byteAt s (o + 1) = s[o + 1] := List.getD_eq_getElem s 0 h
  rw [be16_toNat, bytes16_be16, hfirst, hsecond]
  exact ⟨rfl, rfl⟩

/-- Settles O47: the first four words are the encodings of their rows, and in the last two the codes are wrong. -/
theorem writtenOutWordsDecode : Obligations.WrittenOutWordsDecode :=
  ⟨decode_of_encode rfl, decode_of_encode rfl, decode_of_encode rfl, decode_of_encode rfl,
    (decode_of_length_eight rfl).trans (if_neg (by decide)), (decode_of_length_six rfl).trans (if_neg (by decide))⟩

end Sys2Proof

namespace Sys2Proof.Machine

section receiving
variable (c : Cfg)

/-! ### Well-formed frames (R57, R101) -/

/-- The end codes of a frame stand behind its checksum. -/
theorem endCodes_iff {s : List Byte} {n : Nat} (h : frameLen n ≤ s.length) :
    (endCode1 s n = Config.end1 ∧ endCode2 s n = Config.end2) ↔
      (s.drop (10 + 4 * n)).take 4 = Config.endBytes := by
  rw [frameLen] at h
  rw [← endAt_iff_take (by omega), endAt_iff, endCode1, endCode2,
    show 12 + 4 * n = 10 + 4 * n + 2 by omega]

/-- What `Ok` says of the codes and the checksum (R92, R95, R96). -/
theorem tryDecode_ok_tests {s : List Byte} {f : Frame} {len : Nat} (h : tryDecode c s = .ok f len) :
    (startCode1 s = Config.start1 ∧ startCode2 s = Config.start2) ∧
      (endCode1 s (countField s).toNat = Config.end1 ∧ endCode2 s (countField s).toNat = Config.end2) ∧
      c.cksum (coveredRegion s (countField s).toNat) = checksumField s (countField s).toNat := by
  rcases tryDecode_cases c s with ⟨_, e⟩ | ⟨_, _, e⟩ | ⟨_, h1, h2, ⟨_, e⟩ | ⟨_, _, e⟩ |
      ⟨_, he1, he2, ⟨_, e⟩ | ⟨hk, e⟩⟩⟩ <;>
    rw [e] at h <;> cases h
  exact ⟨⟨h1, h2⟩, ⟨he1, he2⟩, hk⟩

/-! ### Bytes behind a header, and a frame whose checksum is wrong -/

/-- Until the last byte that the header counts, nothing is judged (R91, R94). -/
theorem tryDecode_incomplete_of_prefix {cmd n : U16} {p rest : List Byte}
    (hp : p <+: headerBytes cmd n ++ rest) (hlen : p.length < frameLen n.toNat) :
    (tryDecode c p).incomplete := by
  by_cases h8 : p.length < 8
  · exact tryDecode_incomplete_of_length_lt c h8
  have hfield {o : Nat} (ho : o + 2 ≤ 8) : be16 p o = be16 (headerBytes cmd n) o := by
    rw [List.prefix_iff_eq_take.mp hp, be16_take (by omega), be16_append_left (by simpa using ho)]
  have hcount : countField p = n := (hfield (by decide)).trans (be16_bytes16 n)
  exact .inr (tryDecode_incompleteBody c (by omega) ((hfield (by decide)).trans (be16_bytes16 _))
    ((hfield (by decide)).trans (be16_bytes16 _)) (by rwa [hcount]))

/-- A header and what follows it, short of the whole frame, is held at an empty buffer (R110). -/
theorem rxChunk_of_prefix {cmd n : U16} {s : State} {p rest : List Byte} (more : List Byte)
    (ho : s.status = .opened) (hm : s.rxmode = .synchronized) (hempty : s.rxbuf = [])
    (hp : p <+: headerBytes cmd n ++ rest) (hlen : p.length < frameLen n.toNat)
    (hroom : p.length ≤ c.bufMax) :
    rxChunk c (p ++ more) s = rxChunk c more (s.holding p) := by
  refine rxChunk_append_of_incomplete c p more ho hm (by simpa [hempty] using hroom) fun q hq => ?_
  rw [hempty, List.nil_append]
  exact tryDecode_incomplete_of_prefix c (hq.trans hp) (hq.length_le.trans_lt hlen)

/-- `ChecksumMismatch` where every test of R98 but the last passes (R96). -/
theorem tryDecode_eq_checksumMismatch {s : List Byte} {n : Nat} (hn : (countField s).toNat = n)
    (hlen : frameLen n ≤ s.length) (h1 : startCode1 s = Config.start1) (h2 : startCode2 s = Config.start2)
    (he1 : endCode1 s n = Config.end1) (he2 : endCode2 s n = Config.end2)
    (hk : c.cksum (coveredRegion s n) ≠ checksumField s n) : tryDecode c s = .checksumMismatch := by
  subst hn
  rcases tryDecode_cases c s with
    ⟨h8, _⟩ | ⟨_, hstart, _⟩ | ⟨_, _, _, ⟨hbody, _⟩ | ⟨_, hend, _⟩ | ⟨_, _, _, ⟨_, e⟩ | ⟨hsum, _⟩⟩⟩
  · rw [frameLen] at hlen
    omega
  · exact absurd hstart (by simp [h1, h2])
  · omega
  · exact absurd hend (by simp [he1, he2])
  · exact e
  · exact absurd hsum hk

/-- A corruption at the front with no `START` behind it: `DRAIN` reports it, and keeps three bytes (R112, R115). -/
theorem drain_of_warn_without_start {s : State} {k : WarnKind} (hm : s.rxmode = .synchronized)
    (hlen : 4 ≤ s.rxbuf.length) (hwarn : syncStep c s = (.again, s.raiseWarn k))
    (hnone : findStart (s.rxbuf.drop 1) = none) :
    drain c s = (s.raiseWarn k).dropFront (s.rxbuf.length - 4) := by
  have hagain : drainStep c s = (.again, s.raiseWarn k) := by simp only [drainStep, hm, hwarn]
  have hkeep : (s.rxbuf.drop 1).length - min Config.scanKeep (s.rxbuf.drop 1).length =
      s.rxbuf.length - 4 := by
    rw [List.length_drop, Config.scanKeep]
    omega
  have hwait : drainStep c (s.raiseWarn k) = (.wait, (s.raiseWarn k).dropFront (s.rxbuf.length - 4)) := by
    simp only [drainStep, State.raiseWarn_rxmode, scanStep, State.raiseWarn_rxbuf, hnone, hkeep]
  exact (drainFuel_again c _ hagain).trans (drainFuel_wait c _ hwait)

/-- The byte that completes a frame with a wrong checksum, where no `START` stands behind the front (R112, R115). -/
theorem rxByteAnswered_of_mismatch {b : Byte} {s : State} (ho : s.status = .opened)
    (hm : s.rxmode = .synchronized) (hroom : s.rxbuf.length < c.bufMax)
    (hbad : tryDecode c (s.rxbuf ++ [b]) = .checksumMismatch)
    (hnone : findStart ((s.rxbuf ++ [b]).drop 1) = none) :
    rxByteAnswered c b s = { s with
      rxbuf := (s.rxbuf ++ [b]).drop (s.rxbuf.length - 2)
      rxmode := .scanning
      rxbase := s.rxbase + (s.rxbuf.length - 2)
      rxev := s.rxev ++ [.warn .checksumMismatch]
      results := s.results ++ [.rx .rxDone] } := by
  have h8 : 8 ≤ (s.rxbuf ++ [b]).length := tryDecode_corrupt_length c (.inr (.inr hbad))
  have hwarn : syncStep c (s.append b) = (.again, (s.append b).raiseWarn .checksumMismatch) := by
    simp only [syncStep, State.append_rxbuf, hbad]
  have hlen : (s.rxbuf ++ [b]).length = s.rxbuf.length + 1 := List.length_append
  have hdrop : 1 + (s.rxbuf.length + 1 - 4) = s.rxbuf.length - 2 := by omega
  rw [rxByteAnswered_of_room c b ho hroom,
    drain_of_warn_without_start c (s := s.append b) hm (Nat.le_trans (by decide) h8) hwarn hnone]
  simp only [State.answer, State.dropFront, State.raiseWarn, State.emit, State.setMode, State.append,
    List.drop_drop, hlen, hdrop, Nat.add_assoc]

/-! ### The row `FRAME.N0` at an empty buffer -/

/-- With the right checksum the row is the encoding of a frame without arguments (R80). -/
theorem frameN0_eq_encodeFrame (cmd : U16) :
    headerBytes cmd 0 ++ footerBytes (c.cksum (headerBytes cmd 0)) = encodeFrame c cmd [] := by
  rw [encodeFrame, encodeRegion, List.flatMap_nil, List.append_nil]
  rfl

/-- With a wrong one the checksum is what `TRYDECODE` finds wrong (R96). -/
theorem tryDecode_frameN0_mismatch {cmd k : U16} (hk : k ≠ c.cksum (headerBytes cmd 0)) :
    tryDecode c (headerBytes cmd 0 ++ footerBytes k) = .checksumMismatch := by
  have hcount : (countField (headerBytes cmd 0 ++ footerBytes k)).toNat = 0 :=
    congrArg BitVec.toNat (be16_bytes16 0)
  have hsum : checksumField (headerBytes cmd 0 ++ footerBytes k) 0 = k := be16_bytes16 k
  have hcovered : coveredRegion (headerBytes cmd 0 ++ footerBytes k) 0 = headerBytes cmd 0 := rfl
  exact tryDecode_eq_checksumMismatch c hcount (Nat.le_refl 14) (be16_bytes16 Config.start1)
    (be16_bytes16 Config.start2) (be16_bytes16 Config.end1) (be16_bytes16 Config.end2)
    (by rw [hcovered, hsum]; exact hk.symm)

/-- Behind its first byte no `START` stands in the row: the two zero bytes of arg_count and the end codes leave
no room for one. -/
theorem findStart_frameN0_tail (cmd k : U16) :
    findStart ((headerBytes cmd 0 ++ footerBytes k).drop 1) = none := by
  simp [headerBytes, footerBytes, bytes16, findStart, Config.startBytes, Config.start1, Config.start2,
    Config.end1, Config.end2, List.isPrefixOf]

/-- The row with a wrong checksum: its last byte releases the report, and the scan keeps three bytes (R112,
R115). -/
theorem rxChunk_frameN0_mismatch {cmd k : U16} {s : State} (ho : s.status = .opened)
    (hm : s.rxmode = .synchronized) (hempty : s.rxbuf = []) (hroom : 14 ≤ c.bufMax)
    (hk : k ≠ c.cksum (headerBytes cmd 0)) :
    rxChunk c (headerBytes cmd 0 ++ footerBytes k) s = { s with
      rxbuf := [0xA4, 0xD2, 0x79]
      rxmode := .scanning
      rxbase := s.rxbase + 11
      rxev := s.rxev ++ [.warn .checksumMismatch]
      results := s.results ++ List.replicate 14 (.rx .rxDone) } := by
  obtain ⟨p, hp⟩ : ∃ p, headerBytes cmd 0 ++ footerBytes k = p ++ [0x79] :=
    ⟨(headerBytes cmd 0 ++ footerBytes k).take 13, rfl⟩
  have hlen : p.length = 13 := by simpa using (congrArg List.length hp).symm
  have hheld : rxChunk c (p ++ [0x79]) s = rxByteAnswered c 0x79 (s.holding p) := by
    rw [rxChunk_of_prefix c (cmd := cmd) (n := 0) (rest := footerBytes k) [0x79] ho hm hempty
      (hp ▸ List.prefix_append p _) (by rw [hlen]; decide) (by omega), rxChunk_singleton]
  have hbuf : (s.holding p).rxbuf = p := by simp [hempty]
  have hkept : (p ++ [0x79]).drop 11 = [0xA4, 0xD2, 0x79] := by
    rw [← hp]
    rfl
  rw [hp, hheld, rxByteAnswered_of_mismatch c (s := s.holding p) ho hm]
  case hroom =>
    rw [hbuf, hlen]
    exact hroom
  case hbad =>
    rw [hbuf, ← hp]
    exact tryDecode_frameN0_mismatch c hk
  case hnone =>
    rw [hbuf, ← hp]
    exact findStart_frameN0_tail cmd k
  rw [hbuf, hlen, hkept]
  simp [State.holding, hlen, List.replicate_succ']

end receiving

/-! ### The statements -/

/-- Settles O32: the tests of R98 are the clauses of R57, with the codes compared as fields and as bytes. -/
theorem decoderAcceptsExactlyTheWellFormedFrames : Obligations.DecoderAcceptsExactlyTheWellFormedFrames := by
  intro c s f
  constructor
  · intro h
    obtain ⟨hlen, h14, _, hf⟩ := tryDecode_ok c h
    obtain ⟨hstart, hend, hk⟩ := tryDecode_ok_tests c h
    exact ⟨⟨h14, (startCodes_iff (by omega)).mp hstart, hlen, (endCodes_iff hlen.ge).mp hend, hk.symm⟩, hf⟩
  · rintro ⟨⟨h14, hstart, hlen, hend, hk⟩, rfl⟩
    obtain ⟨h1, h2⟩ := (startCodes_iff (by omega)).mpr hstart
    obtain ⟨he1, he2⟩ := (endCodes_iff hlen.ge).mpr hend
    rw [tryDecode_eq_ok c rfl hlen.ge h1 h2 he1 he2 hk.symm, ← hlen, frameOf]

/-- Settles O52: with the right checksum the row is an encoded frame, received whole (`rxChunk_encodeFrame`); with
a wrong one `rxChunk_frameN0_mismatch`. -/
theorem emptyFrameWordIsDeliveredOrRejected : Obligations.EmptyFrameWordIsDeliveredOrRejected := by
  intro cmd k s ho hm hempty
  have hroom : 14 ≤ Config.cfg.bufMax := openParametersMeetTheirRequirements.1
  refine ⟨fun hk => ?_, fun hk => ?_⟩
  · subst hk
    change Host.Outcome.next (rxChunk _ _ _) = _
    rw [frameN0_eq_encodeFrame, rxChunk_encodeFrame (args := []) Config.cfg ho hm hempty (by decide) hroom]
    rfl
  · exact congrArg Host.Outcome.next (rxChunk_frameN0_mismatch Config.cfg ho hm hempty hroom hk)

/-- Settles O48: each row's meaning is `rxChunk` of its bytes, and so is that of `RX_CHUNK`. -/
theorem frameWordIsTheArrivalOfItsBytes : Obligations.FrameWordIsTheArrivalOfItsBytes :=
  fun _ _ _ _ _ => ⟨rfl, rfl, rfl, rfl⟩

end Sys2Proof.Machine
end

section
/-! SUPPORT. The statements of spec/40_checksum.md: the two functions of the checksum engine (R70, R71), and the
law of R74 for the CRC-16 of R76. With bit 0 of the polynomial set no shift loses information, so absorbing a byte
is injective in the accumulator and in the byte, and accumulators that differ once differ to the end. -/

namespace Sys2Proof

theorem flipped_bit_ne (b : Byte) {j : Nat} (hj : j < 8) : b ^^^ BitVec.twoPow 8 j ≠ b := by
  intro h
  have hbit := congrArg (fun v : Byte => v.getLsbD j) h
  simp [hj] at hbit

end Sys2Proof

namespace Sys2Proof.Machine

/-! ### One shift of the CRC-16 loses nothing (R76) -/

theorem shiftLeft_one_inj_of_msb_eq {x y : U16} (hmsb : x.msb = y.msb) (h : x <<< 1 = y <<< 1) : x = y := by
  rw [BitVec.msb_eq_decide, BitVec.msb_eq_decide, decide_eq_decide] at hmsb
  bv_omega

section oddPolynomial
variable {poly : U16} (h0 : poly.getLsbD 0 = true)
include h0

theorem crcShift_getLsbD_zero (crc : U16) : (crcShift poly crc).getLsbD 0 = crc.msb := by
  unfold crcShift
  split <;> simp_all

/-- The bit that a shift drops is bit 0 of what it gives, so the shift can be undone. -/
theorem crcShift_injective : Function.Injective (crcShift poly) := by
  intro x y h
  have hmsb : x.msb = y.msb := by
    rw [← crcShift_getLsbD_zero h0 x, ← crcShift_getLsbD_zero h0 y, h]
  apply shiftLeft_one_inj_of_msb_eq hmsb
  cases hy : y.msb <;> simpa [crcShift, hmsb, hy] using h

theorem crcShifts_injective : ∀ k, Function.Injective (crcShifts poly k)
  | 0 => Function.injective_id
  | k + 1 => (crcShifts_injective k).comp (crcShift_injective h0)

end oddPolynomial

/-! ### Absorbing a byte loses nothing, and so the law of R74 -/

theorem reverse_injective {w : Nat} : Function.Injective (BitVec.reverse (w := w)) :=
  Function.LeftInverse.injective (g := BitVec.reverse) fun _ => BitVec.reverse_reverse_eq

theorem byte_shiftLeft_eight_injective : Function.Injective (fun b : Byte => b.zeroExtend 16 <<< 8) := by
  intro a b h
  dsimp only at h
  bv_omega

section oddPolynomial
variable {p : CrcParams} (h0 : p.poly.getLsbD 0 = true)
include h0

theorem crcByte_accumulator_injective (b : Byte) : Function.Injective (fun crc => crcByte p crc b) :=
  (crcShifts_injective h0 8).comp fun _ _ h => (BitVec.xor_left_inj _).mp h

theorem crcByte_byte_injective (crc : U16) : Function.Injective (crcByte p crc) := by
  intro a b h
  have hread : (if p.refin then a.reverse else a) = if p.refin then b.reverse else b :=
    byte_shiftLeft_eight_injective ((BitVec.xor_right_inj _).mp (crcShifts_injective h0 8 h))
  split at hread
  · exact reverse_injective hread
  · exact hread

theorem crcByte_foldl_injective :
    ∀ data : List Byte, Function.Injective (fun crc => data.foldl (crcByte p) crc)
  | [] => Function.injective_id
  | b :: rest => (crcByte_foldl_injective rest).comp (crcByte_accumulator_injective h0 b)

/-- The bytes before the flipped one give one accumulator, the two bytes at its offset take it apart, and the bytes
behind keep it apart. -/
theorem crcByte_foldl_flipBit_ne {m : List Byte} {o j : Nat} (ho : o < m.length) (hj : j < 8) (crc : U16) :
    (flipBit m o j).foldl (crcByte p) crc ≠ m.foldl (crcByte p) crc := by
  intro h
  have hm : m = m.take o ++ m[o] :: m.drop (o + 1) := by
    rw [List.cons_getElem_drop_succ, List.take_append_drop]
  rw [flipBit, List.modify_eq_take_cons_drop ho] at h
  conv at h => rhs; rw [hm]
  rw [List.foldl_append, List.foldl_append] at h
  exact flipped_bit_ne m[o] hj (crcByte_byte_injective h0 _ (crcByte_foldl_injective h0 _ h))

end oddPolynomial

/-- Reflection and the last exclusive-or hide no difference of the accumulators. -/
theorem crc16_eq_iff {p : CrcParams} {a b : List Byte} :
    crc16 p a = crc16 p b ↔ a.foldl (crcByte p) p.init = b.foldl (crcByte p) p.init := by
  unfold crc16
  rw [BitVec.xor_left_inj]
  split
  · exact reverse_injective.eq_iff
  · exact Iff.rfl

/-- Settles O42: the final accumulators differ (`crcByte_foldl_flipBit_ne`), and so the checksums
(`crc16_eq_iff`). -/
theorem crcWithOddPolynomialDetectsOneFlippedBit : Obligations.CrcWithOddPolynomialDetectsOneFlippedBit :=
  fun _ h0 _ _ _ _ _ _ ho hj h => crcByte_foldl_flipBit_ne h0 ho hj _ (crc16_eq_iff.mp h)

/-! ### `CK_COMPUTE` and `CK_VERIFY` (R70, R71) -/

theorem ckVerify_eq_true_iff_getLsbD (c : Cfg) (bytes : List Byte) (expected : U16) :
    ckVerify c bytes expected = true ↔ ∀ j < 16, (c.cksum bytes).getLsbD j = expected.getLsbD j := by
  rw [ckVerify, beq_iff_eq, ckCompute]
  exact ⟨fun h _ _ => by rw [h], fun h => BitVec.eq_of_getLsbD_eq h⟩

/-- Settles O41: each function's meaning is one answer, and the verdict is `ckVerify_eq_true_iff_getLsbD`. -/
theorem checksumFunctionsReturnTheParameterAndItsComparison :
    Obligations.ChecksumFunctionsReturnTheParameterAndItsComparison :=
  fun bytes expected _ => ⟨rfl, _, rfl, ckVerify_eq_true_iff_getLsbD Config.cfg bytes expected⟩

end Sys2Proof.Machine
end

section
/-! SUPPORT. The statements of spec/41_tx_encode.md: what `ENCODE` returns (R80, R81), that it can be undone (R82),
what `TX_SEND` can do (R83, R84), and that `TXOUT` stays a concatenation of whole frames (R85). -/

namespace Sys2Proof.Machine

/-! ### `ENCODE` (R80, R82) -/

/-- The bytes of the pseudocode of R80. -/
theorem encodeFrame_eq (c : Cfg) (cmd : U16) (args : List I32) :
    encodeFrame c cmd args = encodeRegion cmd args ++ bytes16 (c.cksum (encodeRegion cmd args)) ++
      bytes16 Config.end1 ++ bytes16 Config.end2 := by
  simp only [encodeFrame, footerBytes, ckCompute, List.append_assoc]

/-- `ENCODE` on its domain is one answer (R80). -/
theorem exec_encode_of_le {cmd : U16} {args : List I32} (h : args.length ≤ Config.maxArgs) (s : State) :
    exec (.encode cmd args) s = .next (s.answer (.bytes (encodeFrame Config.cfg cmd args))) :=
  if_pos h

/-- An encoded frame alone decodes to what it was made from, and all its bytes are taken (R82). -/
theorem tryDecode_encodeFrame (c : Cfg) {cmd : U16} {args : List I32} (h : args.length ≤ Config.maxArgs) :
    tryDecode c (encodeFrame c cmd args) =
      .ok { cmd := cmd, args := args } (encodeFrame c cmd args).length := by
  rw [encodeFrame_length]
  simpa only [List.append_nil] using tryDecode_encodeFrame_append c [] h

/-- Equal frames have equal decodings, so they were made from the same fields (R82). -/
theorem encodeFrame_inj (c : Cfg) {cmd cmd' : U16} {args args' : List I32} (h : args.length ≤ Config.maxArgs)
    (h' : args'.length ≤ Config.maxArgs) (heq : encodeFrame c cmd args = encodeFrame c cmd' args') :
    cmd = cmd' ∧ args = args' := by
  have hdecode := (tryDecode_encodeFrame c h).symm.trans
    ((congrArg (tryDecode c) heq).trans (tryDecode_encodeFrame c h'))
  simp only [DecodeOutcome.ok.injEq, Frame.mk.injEq] at hdecode
  exact hdecode.1

/-- Settles O34: well-formedness is what the decoder's `Ok` says (`decoderAcceptsExactlyTheWellFormedFrames`),
and decoding undoes `ENCODE` (`encodeFrame_inj`). -/
theorem encodedFrameDecodesToItself : Obligations.EncodedFrameDecodesToItself := by
  intro c cmd args h
  have hwf := (decoderAcceptsExactlyTheWellFormedFrames c _ _).mp (tryDecode_encodeFrame c (cmd := cmd) h)
  exact ⟨hwf.1, fun t => tryDecode_encodeFrame_append c t h, fun _ _ h' heq => encodeFrame_inj c h h' heq⟩

/-- Settles O35, by `encodeFrame_length`. -/
theorem encodedFrameHasFourteenPlusFourBytesPerArgument :
    Obligations.EncodedFrameHasFourteenPlusFourBytesPerArgument := by
  intro c cmd args
  rw [encodeFrame_length, frameLen]
  omega

/-- Settles O37: the region written out is `encodeRegion`, and the answer is `encodeFrame_eq`. -/
theorem encodeReturnsTheBytesOfTheFrame : Obligations.EncodeReturnsTheBytesOfTheFrame := by
  intro cmd args s h region
  have hregion : encodeRegion cmd args = region := rfl
  rw [exec_encode_of_le h, encodeFrame_eq, hregion]
  rfl

/-! ### `TX_SEND` (R83, R84) -/

section txSend
variable (c : Cfg) (cmd : U16) {args : List I32} {s : State}

theorem txSend_of_le (ho : s.status = .opened) (h : args.length ≤ Config.maxArgs) :
    txSend c cmd args s = (.txDone (frameLen args.length), s.send (encodeFrame c cmd args)) := by
  rw [txSend, if_neg (not_not.mpr ho), if_neg (Nat.not_lt.mpr h)]

theorem txSend_of_not_opened (hn : s.status ≠ .opened) :
    txSend c cmd args s = (.txRefusedNotOpen, s) := if_pos hn

theorem txSend_of_lt (ho : s.status = .opened) (h : Config.maxArgs < args.length) :
    txSend c cmd args s = (.txRefusedTooManyArgs, s) := by
  rw [txSend, if_neg (not_not.mpr ho), if_pos h]

end txSend

/-- The answered `TX_SEND`, from what the operation does. -/
theorem exec_txSend_of_eq {cmd : U16} {args : List I32} {s t : State} {r : TxResult}
    (h : txSend Config.cfg cmd args s = (r, t)) : exec (.txSend cmd args) s = .next (t.answer (.tx r)) := by
  change execTxSend cmd args s = _
  rw [execTxSend, h]

/-- Settles O38: the three clauses are the three things `TX_SEND` can do. -/
theorem sendAppendsOneWholeFrameOrIsRefused : Obligations.SendAppendsOneWholeFrameOrIsRefused :=
  fun cmd _ _ => ⟨fun ho h => exec_txSend_of_eq (txSend_of_le _ cmd ho h),
    fun hn => exec_txSend_of_eq (txSend_of_not_opened _ cmd hn),
    fun ho h => exec_txSend_of_eq (txSend_of_lt _ cmd ho h)⟩

/-! ### The transmit stream (R85) -/

theorem wholeFrames_nil (c : Cfg) : WholeFrames c [] := ⟨[], by simp, rfl⟩

/-- One more frame behind whole frames. -/
theorem WholeFrames.append_encodeFrame {c : Cfg} {bytes : List Byte} (hw : WholeFrames c bytes) (cmd : U16)
    {args : List I32} (h : args.length ≤ Config.maxArgs) :
    WholeFrames c (bytes ++ encodeFrame c cmd args) := by
  obtain ⟨sent, hsent, rfl⟩ := hw
  refine ⟨sent ++ [{ cmd := cmd, args := args }], fun f hf => ?_, by simp⟩
  rcases List.mem_append.mp hf with hf | hf
  · exact hsent f hf
  · rw [List.mem_singleton.mp hf]
    exact h

/-- A sending is one whole frame or nothing (R85). -/
theorem txSend_wholeFrames {c : Cfg} {s : State} (hw : WholeFrames c s.txout) (cmd : U16) (args : List I32) :
    WholeFrames c (txSend c cmd args s).2.txout := by
  by_cases ho : s.status = .opened
  · rcases Nat.lt_or_ge Config.maxArgs args.length with h | h
    · rwa [txSend_of_lt c cmd ho h]
    · rw [txSend_of_le c cmd ho h]
      exact hw.append_encodeFrame cmd h
  · rwa [txSend_of_not_opened c cmd ho]

/-- `RESET` empties the stream, `TX_SEND` adds a whole frame or nothing, and no other instruction sends. -/
theorem exec_wholeFrames {i : Instr} {s t : State} (hw : WholeFrames Config.cfg s.txout)
    (h : exec i s = .next t) : WholeFrames Config.cfg t.txout := by
  by_cases hi : i = .reset
  · subst hi
    cases h
    exact wholeFrames_nil _
  cases htx : i.isTxSend with
  | false =>
    rw [(exec_keepsTransmitSide hi htx h).txout]
    exact hw
  | true =>
    obtain ⟨cmd, args, rfl⟩ := Instr.eq_of_isTxSend htx
    cases h
    exact txSend_wholeFrames hw cmd args

/-- Settles O39: a step is an instruction (`exec_wholeFrames`) on the state with the line taken off, which has the
same `TXOUT`, or no change. -/
theorem transmitStreamStaysWholeFrames : Obligations.TransmitStreamStaysWholeFrames := by
  refine ⟨fun s t hw h => ?_, fun i s t hw h => exec_wholeFrames hw h⟩
  cases hs : s.script with
  | nil =>
    rw [step_of_script_nil hs] at h
    cases h
    exact hw
  | cons line rest =>
    rw [step_of_script_cons hs] at h
    exact exec_wholeFrames (s := { s with script := rest }) hw h

end Sys2Proof.Machine
end

section
/-! SUPPORT. The statements of spec/42_rx_decode.md. `TRYDECODE` as its tests in the order of R98, each outcome by an
`↔` (R91 to R97), and that a definitive outcome reads only a beginning of the buffer (R100); what one flipped bit does
to the fields of a buffer, and so to a well-formed frame (R101); and the frame-format rows received behind a header
(R94 to R97, R110 to R112). -/

namespace Sys2Proof

/-! ### Bytes and fields after one flipped bit (R7) -/

section flipBit
variable {s : List Byte} {o j : Nat}

@[simp] theorem flipBit_length (s : List Byte) (o j : Nat) : (flipBit s o j).length = s.length :=
  List.length_modify ..

theorem flipBit_take (s : List Byte) (k o j : Nat) : (flipBit s o j).take k = flipBit (s.take k) o j :=
  List.take_modify ..

theorem flipBit_of_length_le (h : s.length ≤ o) : flipBit s o j = s := List.modify_eq_self h

theorem flipBit_take_of_le {k : Nat} (h : k ≤ o) : (flipBit s o j).take k = s.take k := by
  rw [flipBit_take, flipBit_of_length_le ((List.length_take_le k s).trans h)]

theorem flipBit_drop_of_lt {k : Nat} (h : o < k) : (flipBit s o j).drop k = s.drop k :=
  List.drop_modify_of_lt _ _ _ _ h

theorem flipBit_drop_of_le {k : Nat} (h : k ≤ o) :
    (flipBit s o j).drop k = flipBit (s.drop k) (o - k) j :=
  List.drop_modify_of_ge _ _ _ _ h

theorem byteAt_flipBit_of_ne {i : Nat} (h : i ≠ o) : byteAt (flipBit s o j) i = byteAt s i := by
  simp [byteAt, flipBit, h.symm]

theorem byteAt_flipBit_self (h : o < s.length) :
    byteAt (flipBit s o j) o = byteAt s o ^^^ BitVec.twoPow 8 j := by
  simp [byteAt, flipBit, h]

theorem byteAt_flipBit_ne (h : o < s.length) (hj : j < 8) : byteAt (flipBit s o j) o ≠ byteAt s o := by
  rw [byteAt_flipBit_self h]
  exact flipped_bit_ne _ hj

/-- A flip inside the buffer is a change. -/
theorem flipBit_ne (h : o < s.length) (hj : j < 8) : flipBit s o j ≠ s := fun he =>
  byteAt_flipBit_ne h hj (congrArg (byteAt · o) he)

theorem be16_flipBit_of_outside {i : Nat} (h : o < i ∨ i + 2 ≤ o) : be16 (flipBit s o j) i = be16 s i := by
  rw [be16, be16, byteAt_flipBit_of_ne (by omega), byteAt_flipBit_of_ne (by omega)]

theorem be32_flipBit_of_outside {i : Nat} (h : o < i ∨ i + 4 ≤ o) : be32 (flipBit s o j) i = be32 s i := by
  rw [be32, be32, be16_flipBit_of_outside (by omega), be16_flipBit_of_outside (by omega)]

/-- A flip in a u16 field changes the field. -/
theorem be16_flipBit_ne {i : Nat} (hi : i ≤ o) (hi' : o < i + 2) (ho : o < s.length) (hj : j < 8) :
    be16 (flipBit s o j) i ≠ be16 s i := by
  intro he
  obtain ⟨hfirst, hsecond⟩ := append_eq_append_iff.mp he
  rcases (by omega : o = i ∨ o = i + 1) with rfl | rfl
  · exact byteAt_flipBit_ne ho hj hfirst
  · exact byteAt_flipBit_ne ho hj hsecond

end flipBit

end Sys2Proof

namespace Sys2Proof.Machine

/-! ### The tests of `TRYDECODE` on the bytes of a buffer (R98) -/

/-- The header stands at the front, with its start codes (R91, R92 passed). -/
def HeaderStands (s : List Byte) : Prop := 8 ≤ s.length ∧ s.take 4 = Config.startBytes

/-- The buffer holds the whole frame that its header counts (R94 passed). -/
def FrameStands (s : List Byte) : Prop := HeaderStands s ∧ frameLen (countField s).toNat ≤ s.length

/-- That frame has its end codes (R95 passed). -/
def FooterStands (s : List Byte) : Prop :=
  FrameStands s ∧ (s.drop (10 + 4 * (countField s).toNat)).take 4 = Config.endBytes

section stands
variable {s : List Byte}

theorem HeaderStands.eight_le (h : HeaderStands s) : 8 ≤ s.length := h.1

theorem FrameStands.header (h : FrameStands s) : HeaderStands s := h.1

theorem FrameStands.length_le (h : FrameStands s) : 14 + 4 * (countField s).toNat ≤ s.length := h.2

theorem FooterStands.frame (h : FooterStands s) : FrameStands s := h.1

end stands

section tryDecode
variable (c : Cfg) {s : List Byte}

/-- `TRYDECODE` as its tests in the order of R98, with the codes compared as bytes. -/
theorem tryDecode_eq_tests (s : List Byte) : tryDecode c s =
    if s.length < 8 then .incompleteHeader
    else if s.take 4 ≠ Config.startBytes then .badStartCode
    else if s.length < frameLen (countField s).toNat then .incompleteBody
    else if (s.drop (10 + 4 * (countField s).toNat)).take 4 ≠ Config.endBytes then .badEndCode
    else if c.cksum (coveredRegion s (countField s).toNat) ≠ checksumField s (countField s).toNat then
      .checksumMismatch
    else .ok { cmd := cmdField s, args := argsField s (countField s).toNat }
      (frameLen (countField s).toNat) := by
  have hstart (h8 : 8 ≤ s.length) := startCodes_iff (s := s) (by omega)
  have hend (hl : frameLen (countField s).toNat ≤ s.length) := endCodes_iff hl
  rcases tryDecode_cases c s with ⟨h8, e⟩ | ⟨h8, hs, e⟩ | ⟨h8, h1, h2, ⟨hl, e⟩ | ⟨hl, he, e⟩ |
      ⟨hl, he1, he2, ⟨hk, e⟩ | ⟨hk, e⟩⟩⟩ <;> rw [e]
  · rw [if_pos h8]
  · rw [if_neg (Nat.not_lt.mpr h8), if_pos]
    rw [ne_eq, ← hstart h8]
    tauto
  all_goals rw [if_neg (Nat.not_lt.mpr h8), if_neg (not_not.mpr ((hstart h8).mp ⟨h1, h2⟩))]
  · rw [if_pos hl]
  · rw [if_neg (Nat.not_lt.mpr hl), if_pos]
    rw [ne_eq, ← hend hl]
    tauto
  all_goals rw [if_neg (Nat.not_lt.mpr hl), if_neg (not_not.mpr ((hend hl).mp ⟨he1, he2⟩))]
  · rw [if_pos hk]
  · rw [if_neg (not_not.mpr hk)]

/-! Each outcome stands at one place among the tests: where every test before it passes and its own fails. -/

theorem tryDecode_eq_incompleteHeader_iff : tryDecode c s = .incompleteHeader ↔ s.length < 8 := by
  rw [tryDecode_eq_tests]
  split_ifs <;> simp_all

theorem tryDecode_eq_badStartCode_iff :
    tryDecode c s = .badStartCode ↔ 8 ≤ s.length ∧ s.take 4 ≠ Config.startBytes := by
  rw [tryDecode_eq_tests]
  split_ifs <;> simp_all

theorem tryDecode_eq_incompleteBody_iff :
    tryDecode c s = .incompleteBody ↔ HeaderStands s ∧ s.length < frameLen (countField s).toNat := by
  rw [tryDecode_eq_tests, HeaderStands]
  split_ifs <;> simp_all

theorem tryDecode_eq_badEndCode_iff : tryDecode c s = .badEndCode ↔
    FrameStands s ∧ (s.drop (10 + 4 * (countField s).toNat)).take 4 ≠ Config.endBytes := by
  rw [tryDecode_eq_tests, FrameStands, HeaderStands]
  split_ifs <;> simp_all

theorem tryDecode_eq_checksumMismatch_iff : tryDecode c s = .checksumMismatch ↔ FooterStands s ∧
    c.cksum (coveredRegion s (countField s).toNat) ≠ checksumField s (countField s).toNat := by
  rw [tryDecode_eq_tests, FooterStands, FrameStands, HeaderStands]
  split_ifs <;> simp_all

theorem tryDecode_eq_ok_iff {f : Frame} {len : Nat} : tryDecode c s = .ok f len ↔ FooterStands s ∧
    c.cksum (coveredRegion s (countField s).toNat) = checksumField s (countField s).toNat ∧
    len = frameLen (countField s).toNat ∧
    f = { cmd := cmdField s, args := argsField s (countField s).toNat } := by
  rw [tryDecode_eq_tests, FooterStands, FrameStands, HeaderStands]
  split_ifs <;> simp_all [eq_comm, and_comm]

end tryDecode

/-- Settles O30, outcome by outcome. -/
theorem tryDecodeAnswersEachOutcomeExactlyWhenItShould :
    Obligations.TryDecodeAnswersEachOutcomeExactlyWhenItShould :=
  fun _ _ => ⟨_, rfl, tryDecode_eq_incompleteHeader_iff _, tryDecode_eq_badStartCode_iff _,
    tryDecode_eq_incompleteBody_iff _, tryDecode_eq_badEndCode_iff _, tryDecode_eq_checksumMismatch_iff _,
    fun _ _ => tryDecode_eq_ok_iff _⟩

/-! ### Definitive and transient outcomes (R100) -/

theorem DecodeOutcome.definitive_eq_false_iff (r : DecodeOutcome) : r.definitive = false ↔ r.incomplete := by
  cases r <;> simp [definitive, outcomeClass, condition, Condition.conditionClass, incomplete]

section extension
variable {p : List Byte}

theorem countField_append (h : 8 ≤ p.length) (t : List Byte) : countField (p ++ t) = countField p :=
  be16_append_left h

theorem argsField_append {n : Nat} (h : 8 + 4 * n ≤ p.length) (t : List Byte) :
    argsField (p ++ t) n = argsField p n := by
  refine List.map_congr_left fun k hk => ?_
  rw [List.mem_range] at hk
  exact be32_append_left (by omega)

theorem HeaderStands.append (h : HeaderStands p) (t : List Byte) : HeaderStands (p ++ t) :=
  ⟨h.1.trans (by simp), (List.take_append_of_le_length (Nat.le_trans (by decide) h.eight_le)).trans h.2⟩

theorem FrameStands.append (h : FrameStands p) (t : List Byte) : FrameStands (p ++ t) :=
  ⟨h.header.append t, by rw [countField_append h.header.eight_le]; exact h.2.trans (by simp)⟩

variable (c : Cfg)

/-- Bad start codes decide, whatever follows. -/
theorem tryDecode_append_of_badStartCode (h : tryDecode c p = .badStartCode) (t : List Byte) :
    tryDecode c (p ++ t) = .badStartCode := by
  obtain ⟨h8, hstart⟩ := (tryDecode_eq_badStartCode_iff c).mp h
  rw [tryDecode_eq_badStartCode_iff, List.take_append_of_le_length (by omega)]
  exact ⟨h8.trans (by simp), hstart⟩

/-- `TRYDECODE` on a buffer that holds a whole frame: the tests that are left (R95 to R97). -/
theorem tryDecode_of_frameStands {s : List Byte} (h : FrameStands s) : tryDecode c s =
    if (s.drop (10 + 4 * (countField s).toNat)).take 4 ≠ Config.endBytes then .badEndCode
    else if c.cksum (coveredRegion s (countField s).toNat) ≠ checksumField s (countField s).toNat then
      .checksumMismatch
    else .ok { cmd := cmdField s, args := argsField s (countField s).toNat }
      (frameLen (countField s).toNat) := by
  obtain ⟨⟨h8, hstart⟩, hlen⟩ := h
  rw [tryDecode_eq_tests, if_neg (Nat.not_lt.mpr h8), if_neg (not_not.mpr hstart),
    if_neg (Nat.not_lt.mpr hlen)]

/-- A whole frame decides, whatever follows: every field that is tested or answered lies inside it. -/
theorem tryDecode_append_of_frameStands (h : FrameStands p) (t : List Byte) :
    tryDecode c (p ++ t) = tryDecode c p := by
  have hlen := h.length_le
  have hend : ((p ++ t).drop (10 + 4 * (countField p).toNat)).take 4 =
      (p.drop (10 + 4 * (countField p).toNat)).take 4 := by
    rw [List.drop_append_of_le_length (by omega), List.take_append_of_le_length]
    rw [List.length_drop]
    omega
  have hcovered : coveredRegion (p ++ t) (countField p).toNat = coveredRegion p (countField p).toNat :=
    List.take_append_of_le_length (by omega)
  have hsum : checksumField (p ++ t) (countField p).toNat = checksumField p (countField p).toNat :=
    be16_append_left (by omega)
  have hcmd : cmdField (p ++ t) = cmdField p := be16_append_left (by omega)
  rw [tryDecode_of_frameStands c (h.append t), tryDecode_of_frameStands c h, countField_append h.header.eight_le,
    hend, hcovered, hsum, hcmd, argsField_append (by omega)]

/-- The whole frame at the front is enough of a buffer. -/
theorem FrameStands.take {s : List Byte} (h : FrameStands s) :
    FrameStands (s.take (frameLen (countField s).toNat)) := by
  obtain ⟨⟨h8, hstart⟩, hlen⟩ := h
  have h14 : 14 ≤ frameLen (countField s).toNat := Nat.le_add_right _ _
  have hcount : countField (s.take (frameLen (countField s).toNat)) = countField s := be16_take (by omega)
  refine ⟨⟨?_, ?_⟩, ?_⟩
  · rw [List.length_take]
    omega
  · rwa [List.take_take, Nat.min_eq_left (by omega)]
  · rw [hcount, List.length_take]
    omega

theorem tryDecode_take_of_frameStands {s : List Byte} (h : FrameStands s) :
    tryDecode c (s.take (frameLen (countField s).toNat)) = tryDecode c s := by
  conv_rhs => rw [← List.take_append_drop (frameLen (countField s).toNat) s]
  exact (tryDecode_append_of_frameStands c h.take _).symm

/-- A definitive outcome has bad start codes or a whole frame before it. -/
theorem tryDecode_definitive_cases {s : List Byte} (h : (tryDecode c s).definitive = true) :
    tryDecode c s = .badStartCode ∨ (tryDecode c s ≠ .badStartCode ∧ FrameStands s) := by
  cases hr : tryDecode c s with
  | incompleteHeader => rw [hr] at h; exact absurd h (by decide)
  | incompleteBody => rw [hr] at h; exact absurd h (by decide)
  | badStartCode => exact .inl rfl
  | badEndCode => exact .inr ⟨nofun, ((tryDecode_eq_badEndCode_iff c).mp hr).1⟩
  | checksumMismatch => exact .inr ⟨nofun, ((tryDecode_eq_checksumMismatch_iff c).mp hr).1.frame⟩
  | ok f len => exact .inr ⟨nofun, ((tryDecode_eq_ok_iff c).mp hr).1.frame⟩

/-- Behind good start codes no outcome comes before `IncompleteBody` in the order of R98. -/
theorem two_le_rank_of_headerStands {s : List Byte} (h : HeaderStands s) : 2 ≤ (tryDecode c s).rank := by
  cases hr : tryDecode c s with
  | incompleteHeader => exact absurd ((tryDecode_eq_incompleteHeader_iff c).mp hr) (Nat.not_lt.mpr h.eight_le)
  | badStartCode => exact absurd h.2 ((tryDecode_eq_badStartCode_iff c).mp hr).2
  | incompleteBody => exact le_rfl
  | badEndCode => exact Nat.le_add_left 2 1
  | checksumMismatch => exact Nat.le_add_left 2 2
  | ok f len => exact Nat.le_add_left 2 3

/-- Bytes enough for the frame that the header counts change a transient outcome. -/
theorem tryDecode_append_ne_of_incomplete {s : List Byte} (h : (tryDecode c s).incomplete) :
    tryDecode c (s ++ List.replicate (frameLen (countField s).toNat) 0) ≠ tryDecode c s := by
  have h14 : 14 ≤ frameLen (countField s).toNat := Nat.le_add_right _ _
  rcases h with h | h <;> rw [h]
  · rw [ne_eq, tryDecode_eq_incompleteHeader_iff, List.length_append, List.length_replicate]
    omega
  · have h8 : 8 ≤ s.length := ((tryDecode_eq_incompleteBody_iff c).mp h).1.eight_le
    rw [ne_eq, tryDecode_eq_incompleteBody_iff, countField_append h8, List.length_append,
      List.length_replicate]
    omega

/-- No extension leads from a transient outcome to an earlier one. -/
theorem rank_le_rank_append_of_incomplete {s : List Byte} (h : (tryDecode c s).incomplete) (t : List Byte) :
    (tryDecode c s).rank ≤ (tryDecode c (s ++ t)).rank := by
  rcases h with h | h <;> rw [h]
  · exact Nat.zero_le _
  · exact two_le_rank_of_headerStands c (((tryDecode_eq_incompleteBody_iff c).mp h).1.append t)

end extension

/-- Settles O31: what decides is the eight bytes of a bad header or the whole frame
(`tryDecode_definitive_cases`), and both stand in every extension. -/
theorem definitiveOutcomeIsStableUnderExtension : Obligations.DefinitiveOutcomeIsStableUnderExtension := by
  intro c b
  refine ⟨fun hdef => ?_, fun htrans => ?_⟩
  · rcases tryDecode_definitive_cases c hdef with hbad | ⟨hgood, hframe⟩
    · obtain ⟨h8, hstart⟩ := (tryDecode_eq_badStartCode_iff c).mp hbad
      refine ⟨fun t => (tryDecode_append_of_badStartCode c hbad t).trans hbad.symm, fun _ => ?_,
        fun hgood => absurd hbad hgood⟩
      rw [tryDecode_eq_badStartCode_iff, List.length_take, List.take_take]
      exact ⟨by omega, hstart⟩
    · exact ⟨tryDecode_append_of_frameStands c hframe, fun hbad => absurd hbad hgood,
        fun _ => tryDecode_take_of_frameStands c hframe⟩
  · rw [DecodeOutcome.definitive_eq_false_iff] at htrans
    exact ⟨⟨_, tryDecode_append_ne_of_incomplete c htrans⟩, rank_le_rank_append_of_incomplete c htrans⟩

/-! ### One flipped bit in a well-formed frame (R101) -/

theorem footerStands_of_wellFormedFrame {c : Cfg} {s : List Byte} (h : WellFormedFrame c s) :
    FooterStands s := by
  obtain ⟨h14, hstart, hlen, hend, _⟩ := h
  exact ⟨⟨⟨by omega, hstart⟩, hlen.ge⟩, hend⟩

section flipped
variable {s : List Byte} {o j : Nat}

theorem countField_flipBit (h : o < 6 ∨ 8 ≤ o) : countField (flipBit s o j) = countField s :=
  be16_flipBit_of_outside h

/-- The four end codes, where the flip is in front of them. -/
theorem endCodes_flipBit {n : Nat} (h : o < 10 + 4 * n) :
    ((flipBit s o j).drop (10 + 4 * n)).take 4 = (s.drop (10 + 4 * n)).take 4 := by
  rw [flipBit_drop_of_lt h]

theorem coveredRegion_flipBit (n : Nat) : coveredRegion (flipBit s o j) n = flipBit (coveredRegion s n) o j :=
  flipBit_take ..

theorem HeaderStands.flipBit (h : HeaderStands s) (ho : 4 ≤ o) : HeaderStands (flipBit s o j) :=
  ⟨h.1.trans (flipBit_length s o j).ge, (flipBit_take_of_le ho).trans h.2⟩

/-- Outside the start codes and arg_count a flip leaves the frame where it is. -/
theorem FrameStands.flipBit (h : FrameStands s) (ho : 4 ≤ o) (hcount : o < 6 ∨ 8 ≤ o) :
    FrameStands (flipBit s o j) := by
  refine ⟨h.1.flipBit ho, ?_⟩
  rw [countField_flipBit hcount, flipBit_length]
  exact h.2

theorem FooterStands.flipBit (h : FooterStands s) (ho : 4 ≤ o) (hcount : o < 6 ∨ 8 ≤ o)
    (hend : o < 10 + 4 * (countField s).toNat) : FooterStands (flipBit s o j) := by
  refine ⟨h.1.flipBit ho hcount, ?_⟩
  rw [countField_flipBit hcount, endCodes_flipBit hend]
  exact h.2

variable {c : Cfg} (hwf : WellFormedFrame c s) (hj : j < 8)
include hwf hj

theorem tryDecode_flipBit_startCodes (ho : o < 4) : tryDecode c (flipBit s o j) = .badStartCode := by
  obtain ⟨h14, hstart, _⟩ := hwf
  rw [tryDecode_eq_badStartCode_iff, flipBit_length, flipBit_take, ← hstart]
  exact ⟨by omega, flipBit_ne (by rw [List.length_take]; omega) hj⟩

/-- In command_code or an argument: the law of R74 tells the covered regions apart. -/
theorem tryDecode_flipBit_covered (law : SingleBitLaw c.cksum) (ho : 4 ≤ o) (hcount : o < 6 ∨ 8 ≤ o)
    (hcov : o < 8 + 4 * (countField s).toNat) : tryDecode c (flipBit s o j) = .checksumMismatch := by
  have hfooter := footerStands_of_wellFormedFrame hwf
  have hfits := hfooter.frame.length_le
  obtain ⟨_, _, _, _, hsum⟩ := hwf
  have hlen : (coveredRegion s (countField s).toNat).length = 8 + 4 * (countField s).toNat := by
    rw [coveredRegion, List.length_take]
    exact Nat.min_eq_left (by omega)
  have hsum' : checksumField (flipBit s o j) (countField s).toNat =
      c.cksum (coveredRegion s (countField s).toNat) := (be16_flipBit_of_outside (.inl hcov)).trans hsum
  rw [tryDecode_eq_checksumMismatch_iff, countField_flipBit hcount, coveredRegion_flipBit, hsum']
  exact ⟨hfooter.flipBit ho hcount (by omega),
    law _ _ o j (Nat.le_of_lt_succ (countField s).isLt) hlen (by omega) hj⟩

theorem tryDecode_flipBit_checksum (ho : 8 + 4 * (countField s).toNat ≤ o)
    (ho' : o < 10 + 4 * (countField s).toNat) : tryDecode c (flipBit s o j) = .checksumMismatch := by
  have hfooter := footerStands_of_wellFormedFrame hwf
  have hfits := hfooter.frame.length_le
  obtain ⟨_, _, _, _, hsum⟩ := hwf
  have hcovered : coveredRegion (flipBit s o j) (countField s).toNat =
      coveredRegion s (countField s).toNat := flipBit_take_of_le ho
  rw [tryDecode_eq_checksumMismatch_iff, countField_flipBit (by omega), hcovered, ← hsum]
  exact ⟨hfooter.flipBit (by omega) (by omega) ho',
    (be16_flipBit_ne ho (by omega) (by omega) hj).symm⟩

theorem tryDecode_flipBit_endCodes (ho : 10 + 4 * (countField s).toNat ≤ o)
    (ho' : o < 14 + 4 * (countField s).toNat) : tryDecode c (flipBit s o j) = .badEndCode := by
  have hfooter := footerStands_of_wellFormedFrame hwf
  have hfits := hfooter.frame.length_le
  rw [tryDecode_eq_badEndCode_iff, countField_flipBit (by omega), flipBit_drop_of_le ho, flipBit_take,
    ← hfooter.2]
  exact ⟨hfooter.frame.flipBit (by omega) (by omega),
    flipBit_ne (by rw [List.length_take, List.length_drop]; omega) hj⟩

/-! In arg_count, `s` being well formed: the flipped buffer has another count and is judged by it. -/

theorem countField_flipBit_ne (ho : o = 6 ∨ o = 7) :
    (countField (flipBit s o j)).toNat ≠ (countField s).toNat := by
  obtain ⟨h14, _⟩ := hwf
  intro he
  exact be16_flipBit_ne (i := 6) (by omega) (by omega) (by omega) hj (BitVec.eq_of_toNat_eq he)

omit hj in
theorem tryDecode_flipBit_count_raised (ho : o = 6 ∨ o = 7)
    (hm : (countField s).toNat < (countField (flipBit s o j)).toNat) :
    tryDecode c (flipBit s o j) = .incompleteBody := by
  have hheader := (footerStands_of_wellFormedFrame hwf).frame.header
  obtain ⟨_, _, hlen, _⟩ := hwf
  rw [tryDecode_eq_incompleteBody_iff, flipBit_length, hlen]
  exact ⟨hheader.flipBit (by omega), by rw [frameLen, frameLen]; omega⟩

omit hj in
/-- A lowered count leaves a whole frame at the front, with the fields at the offsets of the new count. -/
theorem frameStands_flipBit_count_lowered (ho : o = 6 ∨ o = 7)
    (hm : (countField (flipBit s o j)).toNat < (countField s).toNat) :
    FrameStands (flipBit s o j) := by
  have hheader := (footerStands_of_wellFormedFrame hwf).frame.header
  obtain ⟨_, _, hlen, _⟩ := hwf
  refine ⟨hheader.flipBit (by omega), ?_⟩
  rw [flipBit_length, hlen, frameLen, frameLen]
  omega

end flipped

theorem argsField_take (s : List Byte) {m n : Nat} (h : m ≤ n) : (argsField s n).take m = argsField s m := by
  rw [argsField, ← List.map_take, List.take_range, Nat.min_eq_left h, argsField]

theorem argsField_flipBit {s : List Byte} {o j : Nat} (ho : o < 8) (n : Nat) :
    argsField (flipBit s o j) n = argsField s n :=
  List.map_congr_left fun _ _ => be32_flipBit_of_outside (by omega)

/-- Settles O33: an encoded frame is well formed, and each clause is the lemma on a well-formed frame for the field
of the flip. -/
theorem oneFlippedBitByField : Obligations.OneFlippedBitByField := by
  intro c cmd args o j law hargs hj n s m
  have hwf : WellFormedFrame c (encodeFrame c cmd args) := (encodedFrameDecodesToItself c cmd args hargs).1
  have hn : (countField (encodeFrame c cmd args)).toNat = n := countField_encodeRegion cmd args _ hargs
  rw [← hn]
  refine ⟨tryDecode_flipBit_startCodes hwf hj, fun ho => ?_, fun ho => ⟨countField_flipBit_ne hwf hj ho,
    tryDecode_flipBit_count_raised hwf ho, fun hm => ?_⟩, tryDecode_flipBit_checksum hwf hj,
    tryDecode_flipBit_endCodes hwf hj⟩
  · exact tryDecode_flipBit_covered hwf hj law (by omega) (by omega) (by omega)
  · have hcmd : cmdField s = cmd :=
      (be16_flipBit_of_outside (by omega)).trans (cmdField_encodeRegion cmd args _)
    have hfields : argsField s m = args.take m := by
      rw [argsField_flipBit (by omega), ← argsField_take _ (hn ▸ hm.le)]
      exact congrArg (List.take m) (argsField_encodeRegion cmd args _)
    rw [tryDecode_of_frameStands c (frameStands_flipBit_count_lowered hwf ho hm), hcmd, ← hfields]
    rfl

/-! ### A footer behind a header and its arguments (R94 to R97) -/

/-- Behind the region of a frame any footer word completes a frame with good end codes. -/
theorem footerStands_encodeRegion {cmd : U16} {args : List I32} (k : U16) (h : args.length ≤ Config.maxArgs) :
    FooterStands (encodeRegion cmd args ++ footerBytes k) := by
  have hr : (encodeRegion cmd args).length = 8 + 4 * args.length := encodeRegion_length cmd args
  have hcount := countField_encodeRegion cmd args (footerBytes k) h
  refine ⟨⟨⟨by rw [List.length_append, hr]; omega, rfl⟩, ?_⟩, ?_⟩ <;> rw [hcount]
  · rw [List.length_append, hr, footerBytes_length, frameLen]
    omega
  · rw [show 10 + 4 * args.length = (encodeRegion cmd args).length + 2 by omega,
      List.drop_length_add_append]
    rfl

theorem tryDecode_encodeRegion_mismatch (c : Cfg) {cmd k : U16} {args : List I32}
    (h : args.length ≤ Config.maxArgs) (hk : k ≠ c.cksum (encodeRegion cmd args)) :
    tryDecode c (encodeRegion cmd args ++ footerBytes k) = .checksumMismatch := by
  have hr : (encodeRegion cmd args).length = 8 + 4 * args.length := encodeRegion_length cmd args
  have hcovered : coveredRegion (encodeRegion cmd args ++ footerBytes k) args.length =
      encodeRegion cmd args := by rw [coveredRegion, ← hr, List.take_left]
  have hsum : checksumField (encodeRegion cmd args ++ footerBytes k) args.length = k := by
    rw [checksumField, ← hr]
    exact (be16_append_right _ _ 0).trans (be16_bytes16 k)
  rw [tryDecode_eq_checksumMismatch_iff, countField_encodeRegion cmd args _ h, hcovered, hsum]
  exact ⟨footerStands_encodeRegion k h, hk.symm⟩

/-! ### Words received behind a header (R110 to R112) -/

section receiving
variable (c : Cfg) {s : State}

/-- Behind a header and short of the frame that it counts, received bytes are held (R94, R110). -/
theorem rxChunk_behind_header {cmd n : U16} {held bytes : List Byte} (more : List Byte)
    (ho : s.status = .opened) (hm : s.rxmode = .synchronized) (hbuf : s.rxbuf = headerBytes cmd n ++ held)
    (hroom : s.rxbuf.length + bytes.length ≤ c.bufMax)
    (hlen : s.rxbuf.length + bytes.length < frameLen n.toNat) :
    rxChunk c (bytes ++ more) s = rxChunk c more (s.holding bytes) := by
  refine rxChunk_append_of_incomplete c bytes more ho hm hroom fun p hp => ?_
  refine tryDecode_incomplete_of_prefix c (cmd := cmd) (n := n) (rest := held ++ p) ?_ ?_
  · rw [hbuf, List.append_assoc]
  · have hple := hp.length_le
    rw [List.length_append]
    omega

/-- The rounds of `DRAIN` only append to the events. -/
theorem drainFuel_rxev_prefix (fuel : Nat) (s : State) : s.rxev <+: (drainFuel c fuel s).rxev := by
  refine drainFuel_induct c (P := fun t => s.rxev <+: t.rxev) (fun t ht => ?_) (fun t ht => ?_) fuel s
    List.prefix_rfl
  · obtain ⟨evs, hev, _⟩ := syncStep_deliversFrom c t
    exact ht.trans ⟨evs, hev.symm⟩
  · rwa [scanStep_rxev]

/-- A corruption at the front is the first thing `DRAIN` reports (R112). -/
theorem drain_rxev_of_warn {k : WarnKind} (hm : s.rxmode = .synchronized)
    (hwarn : syncStep c s = (.again, s.raiseWarn k)) :
    s.rxev ++ [.warn k] <+: (drain c s).rxev := by
  have hagain : drainStep c s = (.again, s.raiseWarn k) := by simp only [drainStep, hm, hwarn]
  rw [drain, drainFuel_again c _ hagain]
  exact drainFuel_rxev_prefix c _ (s.raiseWarn k)

end receiving

/-! ### The footer word behind the region of a frame -/

/-- `s` with a footer word held but for its last byte, which is that of `END2`. -/
def State.holdingFooter (s : State) (k : U16) : State := s.holding ((footerBytes k).take 5)

theorem State.holdingFooter_append (s : State) (k : U16) :
    (s.holdingFooter k).rxbuf ++ [0x79] = s.rxbuf ++ footerBytes k := by
  rw [holdingFooter, State.holding_rxbuf, List.append_assoc]
  rfl

theorem State.holdingFooter_length (s : State) (k : U16) :
    (s.holdingFooter k).rxbuf.length = s.rxbuf.length + 5 := by
  rw [holdingFooter, State.holding_rxbuf, List.length_append]
  rfl

section footer
variable {c : Cfg} {s : State} {cmd k : U16} {args : List I32} (ho : s.status = .opened)
  (hm : s.rxmode = .synchronized) (hbuf : s.rxbuf = encodeRegion cmd args)
  (hargs : args.length ≤ Config.maxArgs) (hroom : frameLen args.length ≤ c.bufMax)
include ho hm hbuf hargs hroom

/-- The footer word up to its last byte is held, and there is room for that one (R94, R110). -/
theorem rxChunk_footerBytes : (s.holdingFooter k).rxbuf.length + 1 = frameLen args.length ∧
    rxChunk c (footerBytes k) s = rxByteAnswered c 0x79 (s.holdingFooter k) := by
  have hlen : s.rxbuf.length = 8 + 4 * args.length := by rw [hbuf, encodeRegion_length]
  have hfive : ((footerBytes k).take 5).length = 5 := rfl
  have hcount : (BitVec.ofNat 16 args.length).toNat = args.length :=
    Nat.mod_eq_of_lt (Nat.lt_succ_of_le hargs)
  rw [frameLen] at hroom ⊢
  refine ⟨by rw [State.holdingFooter_length]; omega, ?_⟩
  rw [← rxChunk_singleton, State.holdingFooter, ← rxChunk_behind_header c [0x79] ho hm hbuf (by omega)
    (by rw [hcount, frameLen]; omega)]
  rfl

/-- The right footer word delivers the frame and empties the buffer (R97, R111). -/
theorem rxChunk_footerBytes_of_eq (hk : k = c.cksum s.rxbuf) :
    rxChunk c (footerBytes k) s = { s with
      rxbuf := []
      rxbase := s.rxbase + frameLen args.length
      rxev := s.rxev ++ [.frame { cmd := cmd, args := args }]
      results := s.results ++ List.replicate 6 (.rx .rxDone) } := by
  obtain ⟨hlen, hheld⟩ := rxChunk_footerBytes (k := k) ho hm hbuf hargs hroom
  have hframe : (s.holdingFooter k).rxbuf ++ [0x79] = encodeFrame c cmd args := by
    rw [State.holdingFooter_append, hk, hbuf]
    rfl
  have hok : tryDecode c ((s.holdingFooter k).rxbuf ++ [0x79]) =
      .ok { cmd := cmd, args := args } ((s.holdingFooter k).rxbuf.length + 1) := by
    rw [hframe, hlen, tryDecode_encodeFrame c hargs, encodeFrame_length]
  rw [hheld, rxByteAnswered_of_whole c (s := s.holdingFooter k) ho hm (by omega) hok, hlen]
  simp [State.holdingFooter, State.holding, List.replicate_succ']

/-- With any other checksum the last byte of the footer word reports the mismatch before anything else (R96,
R112), and the status stays `OPEN`. -/
theorem rxChunk_footerBytes_of_ne (hk : k ≠ c.cksum s.rxbuf) :
    (rxChunk c (footerBytes k) s).status = .opened ∧
      s.rxev ++ [.warn .checksumMismatch] <+: (rxChunk c (footerBytes k) s).rxev := by
  obtain ⟨hlen, hheld⟩ := rxChunk_footerBytes (k := k) ho hm hbuf hargs hroom
  have hbad : tryDecode c ((s.holdingFooter k).rxbuf ++ [0x79]) = .checksumMismatch := by
    rw [State.holdingFooter_append, hbuf]
    exact tryDecode_encodeRegion_mismatch c hargs (hbuf ▸ hk)
  have hwarn : syncStep c ((s.holdingFooter k).append 0x79) =
      (.again, ((s.holdingFooter k).append 0x79).raiseWarn .checksumMismatch) := by
    simp only [syncStep, State.append_rxbuf, hbad]
  rw [hheld, rxByteAnswered_of_room c 0x79 (s := s.holdingFooter k) ho (by omega)]
  exact ⟨(drain_status c _).trans ho,
    drain_rxev_of_warn c (s := (s.holdingFooter k).append 0x79) hm hwarn⟩

end footer

/-! ### The statements on the rows of a frame -/

/-- Settles O49: a header alone is short of every frame, so it is held (`rxChunk_of_prefix`). -/
theorem headerWordIsHeldAtAnEmptyBuffer : Obligations.HeaderWordIsHeldAtAnEmptyBuffer := by
  intro cmd n s ho hm hempty
  have hroom : 14 ≤ Config.cfg.bufMax := openParametersMeetTheirRequirements.1
  have hheld : rxChunk Config.cfg (headerBytes cmd n ++ []) s = s.holding (headerBytes cmd n) :=
    rxChunk_of_prefix Config.cfg [] ho hm hempty (List.prefix_append _ [])
      (by rw [headerBytes_length, frameLen]; omega) (by rw [headerBytes_length]; omega)
  rw [List.append_nil, State.holding, hempty] at hheld
  exact congrArg Host.Outcome.next hheld

/-- Settles O50, by `rxChunk_behind_header`. -/
theorem argumentWordIsHeldInsideABody : Obligations.ArgumentWordIsHeldInsideABody := by
  intro cmd n args w s ho hm hbuf hargs hroom
  have hlen : s.rxbuf.length = 8 + 4 * args.length := by
    rw [hbuf, List.length_append, headerBytes_length]
    exact congrArg (8 + ·) (argBytes_flatMap_length args)
  have hheld := rxChunk_behind_header Config.cfg (bytes := argBytes w) [] ho hm hbuf
    (by rw [argBytes_length]; omega) (by rw [argBytes_length, frameLen]; omega)
  rw [List.append_nil] at hheld
  exact congrArg Host.Outcome.next hheld

/-- Settles O51: both clauses receive the footer word behind the region it checks. -/
theorem footerWordCompletesTheFrame : Obligations.FooterWordCompletesTheFrame :=
  fun _ _ _ _ ho hm hbuf hargs hroom =>
    ⟨fun hk => congrArg Host.Outcome.next (rxChunk_footerBytes_of_eq ho hm hbuf hargs hroom hk),
      fun hk => ⟨_, rfl, rxChunk_footerBytes_of_ne ho hm hbuf hargs hroom hk⟩⟩

end Sys2Proof.Machine
end

section
/-! SUPPORT. The statements of spec/43_rx_assembler.md. The rounds of `DRAIN` without their bound (R108), and
that bytes appended before or after a `DRAIN` come to the same (R120); from that, that the receive side stands
where the reading of the stream stands (R121); then what `RX_BYTE`, `SYNC_STEP` and `SCAN_STEP` do, clause by
clause. -/

namespace Sys2Proof.Machine

/-! ### The rounds of `DRAIN` without a bound (R108, R117) -/

section rounds
variable (c : Cfg)

theorem drainStep_of_synchronized {s : State} (h : s.rxmode = .synchronized) :
    drainStep c s = syncStep c s := by rw [drainStep, h]

theorem drainStep_of_scanning {s : State} (h : s.rxmode = .scanning) : drainStep c s = scanStep s := by
  rw [drainStep, h]

/-- Bounds above the measure do not show in the result. -/
theorem drainFuel_eq_of_measure_lt {fuel fuel' : Nat} {s : State} (h : drainMeasure s < fuel)
    (h' : drainMeasure s < fuel') : drainFuel c fuel s = drainFuel c fuel' s := by
  induction fuel generalizing fuel' s with
  | zero => omega
  | succ fuel ih =>
    obtain ⟨fuel', rfl⟩ : ∃ k, fuel' = k + 1 := ⟨fuel' - 1, by omega⟩
    rcases hd : drainStep c s with ⟨_ | _, t⟩
    · rw [drainFuel_wait c _ hd, drainFuel_wait c _ hd]
    · have hlt := drainStep_again_measure_lt c hd
      rw [drainFuel_again c _ hd, drainFuel_again c _ hd]
      exact ih (by omega) (by omega)

theorem drain_of_wait {s t : State} (h : drainStep c s = (.wait, t)) : drain c s = t :=
  drainFuel_wait c _ h

theorem drain_of_again {s t : State} (h : drainStep c s = (.again, t)) : drain c s = drain c t := by
  have hlt := drainStep_again_measure_lt c h
  have hs := drainMeasure_le s
  have ht := drainMeasure_le t
  rw [drain, drainFuel_again c _ h]
  exact drainFuel_eq_of_measure_lt c (by omega) (by omega)

/-- Equal first rounds make equal drains. -/
theorem drain_congr {s t : State} (h : drainStep c s = drainStep c t) : drain c s = drain c t := by
  rcases hd : drainStep c t with ⟨_ | _, u⟩
  · rw [drain_of_wait c hd, drain_of_wait c (h.trans hd)]
  · rw [drain_of_again c hd, drain_of_again c (h.trans hd)]

/-- Induction along the rounds of `DRAIN`, which end at a *wait*. -/
theorem drain_rounds_induct {P : State → Prop} (wait : ∀ s t, drainStep c s = (.wait, t) → P s)
    (again : ∀ s t, drainStep c s = (.again, t) → P t → P s) (s : State) : P s := by
  rcases hd : drainStep c s with ⟨_ | _, t⟩
  · exact wait s t hd
  · exact again s t hd (drain_rounds_induct wait again t)
termination_by drainMeasure s
decreasing_by exact drainStep_again_measure_lt c hd

end rounds

/-! ### `SYNC_STEP` on a front that can be judged (R111, R112) -/

/-- The outcome `r` is a corruption, and `k` is the kind of its `Warn` (R112, R141). -/
def DecodeOutcome.Warns (r : DecodeOutcome) (k : WarnKind) : Prop :=
  (r = .badStartCode ∧ k = .badStartCode) ∨ (r = .badEndCode ∧ k = .badEndCode) ∨
    (r = .checksumMismatch ∧ k = .checksumMismatch)

theorem syncStep_of_ok (c : Cfg) {s : State} {f : Frame} {len : Nat}
    (h : tryDecode c s.rxbuf = .ok f len) :
    syncStep c s = (.again, (s.emit (.frame f)).dropFront len) := by rw [syncStep, h]

theorem syncStep_of_warns (c : Cfg) {s : State} {k : WarnKind} (h : (tryDecode c s.rxbuf).Warns k) :
    syncStep c s = (.again, s.raiseWarn k) := by
  rcases h with ⟨h, rfl⟩ | ⟨h, rfl⟩ | ⟨h, rfl⟩ <;> rw [syncStep, h]

/-! ### The search for `START` in a longer and in a shorter buffer (R113) -/

theorem findStart_eq_none_of_not_containsStart {s : List Byte} (h : ¬ containsStart s) :
    findStart s = none := by
  cases hf : findStart s with
  | none => rfl
  | some i => exact absurd ⟨i, (findStart_some hf).1⟩ h

/-- Bytes at which no `START` begins are passed over. -/
theorem findStart_drop {s : List Byte} {k : Nat} (h : ∀ j < k, ¬ Config.startBytes <+: s.drop j) :
    findStart s = (findStart (s.drop k)).map (· + k) := by
  induction k generalizing s with
  | zero => simp
  | succ k ih =>
    cases s with
    | nil => rfl
    | cons b rest =>
      have hfront : ¬ Config.startBytes.isPrefixOf (b :: rest) = true := fun hp =>
        h 0 (Nat.succ_pos k) (List.isPrefixOf_iff_prefix.mp hp)
      have hrest := ih (s := rest) fun j hj => h (j + 1) (Nat.succ_lt_succ hj)
      rw [findStart, if_neg hfront, hrest, Option.map_map, List.drop_succ_cons]
      rfl

theorem findStart_eq_some {s : List Byte} {i : Nat} (hat : Config.startBytes <+: s.drop i)
    (hleast : ∀ j < i, ¬ Config.startBytes <+: s.drop j) : findStart s = some i := by
  obtain ⟨post, hpost⟩ := hat
  have hfront : findStart (Config.startBytes ++ post) = some 0 := rfl
  rw [findStart_drop hleast, ← hpost, hfront, Option.map_some, Nat.zero_add]

/-- Inside the buffer `START` stands where it stood before more bytes came. -/
theorem start_at_append_iff {s : List Byte} {j : Nat} (hj : j + 4 ≤ s.length) (ys : List Byte) :
    Config.startBytes <+: (s ++ ys).drop j ↔ Config.startBytes <+: s.drop j := by
  have hlen : Config.startBytes.length ≤ (s.drop j).length := by
    simp only [Config.startBytes, List.length_cons, List.length_nil, List.length_drop]
    omega
  rw [List.drop_append_of_le_length (by omega)]
  exact ⟨fun hp => List.prefix_of_prefix_length_le hp (List.prefix_append _ ys) hlen,
    fun hp => hp.trans (List.prefix_append _ ys)⟩

/-- A match is not moved by bytes behind the buffer. -/
theorem findStart_append_of_some {s : List Byte} {i : Nat} (h : findStart s = some i) (ys : List Byte) :
    findStart (s ++ ys) = some i := by
  obtain ⟨hat, hleast⟩ := findStart_some h
  have h4 := findStart_add_four_le h
  exact findStart_eq_some ((start_at_append_iff h4 ys).mpr hat)
    fun j hj => (start_at_append_iff (by omega) ys).not.mpr (hleast j hj)

/-! ### Several bytes appended at once -/

/-- `Append` of each of `bytes`, with no `DRAIN` between them. -/
def State.appendAll (s : State) (bytes : List Byte) : State := { s with rxbuf := s.rxbuf ++ bytes }

section appendAll
variable (s : State) (ys : List Byte)

@[simp] theorem State.appendAll_rxbuf : (s.appendAll ys).rxbuf = s.rxbuf ++ ys := rfl
@[simp] theorem State.appendAll_rxmode : (s.appendAll ys).rxmode = s.rxmode := rfl

theorem State.appendAll_nil : s.appendAll [] = s := by simp [State.appendAll]

theorem State.append_appendAll (b : Byte) : (s.append b).appendAll ys = s.appendAll (b :: ys) := by
  simp [State.appendAll, State.append]

variable {s}

theorem State.appendAll_dropFront {k : Nat} (h : k ≤ s.rxbuf.length) :
    (s.appendAll ys).dropFront k = (s.dropFront k).appendAll ys := by
  simp [State.appendAll, State.dropFront, List.drop_append_of_le_length h]

theorem State.appendAll_raiseWarn (k : WarnKind) (h : 1 ≤ s.rxbuf.length) :
    (s.appendAll ys).raiseWarn k = (s.raiseWarn k).appendAll ys :=
  State.appendAll_dropFront ys (s := (s.emit (.warn k)).setMode .scanning) h

theorem State.appendAll_resumeAt {i : Nat} (h : i ≤ s.rxbuf.length) :
    (s.appendAll ys).resumeAt i = (s.resumeAt i).appendAll ys :=
  congrArg (State.setMode · .synchronized) (State.appendAll_dropFront ys h)

end appendAll

/-! ### Append and `DRAIN` (R120) -/

section draining
variable (c : Cfg)

theorem tryDecode_append_of_definitive {p : List Byte} (h : (tryDecode c p).definitive = true)
    (t : List Byte) : tryDecode c (p ++ t) = tryDecode c p :=
  ((definitiveOutcomeIsStableUnderExtension c p).1 h).1 t

theorem definitive_of_syncStep_again {s t : State} (h : syncStep c s = (.again, t)) :
    (tryDecode c s.rxbuf).definitive = true := by
  by_contra hdef
  rw [Bool.not_eq_true, DecodeOutcome.definitive_eq_false_iff] at hdef
  cases (syncStep_of_incomplete c hdef).symm.trans h

/-- A round of `SYNC_STEP` that goes on is the same with more bytes behind the buffer (R100). -/
theorem syncStep_appendAll_of_again {s t : State} (h : syncStep c s = (.again, t)) (ys : List Byte) :
    syncStep c (s.appendAll ys) = (.again, t.appendAll ys) := by
  have hsame : tryDecode c (s.appendAll ys).rxbuf = tryDecode c s.rxbuf :=
    tryDecode_append_of_definitive c (definitive_of_syncStep_again c h) ys
  rcases syncStep_cases c s with ⟨_, e⟩ | ⟨f, len, hok, _, hlen, e⟩ | ⟨k, h8, hbad, e⟩ <;>
    rw [e] at h <;> cases h
  · rw [syncStep_of_ok c (hsame.trans hok)]
    exact congrArg _ (State.appendAll_dropFront ys (s := s.emit (.frame f)) hlen)
  · rw [syncStep_of_warns c (hsame.symm ▸ hbad), State.appendAll_raiseWarn ys k (by omega)]

/-- A scan match is the same with more bytes behind the buffer. -/
theorem scanStep_appendAll_of_again {s t : State} (h : scanStep s = (.again, t)) (ys : List Byte) :
    scanStep (s.appendAll ys) = (.again, t.appendAll ys) := by
  rcases scanStep_cases s with ⟨i, hi, e⟩ | ⟨_, e⟩ <;> rw [e] at h <;> cases h
  have h4 := findStart_add_four_le hi
  rw [← State.appendAll_resumeAt ys (by omega), scanStep, State.appendAll_rxbuf,
    findStart_append_of_some hi]

theorem drainStep_appendAll_of_again {s t : State} (h : drainStep c s = (.again, t)) (ys : List Byte) :
    drainStep c (s.appendAll ys) = (.again, t.appendAll ys) := by
  cases hm : s.rxmode with
  | synchronized =>
    rw [drainStep_of_synchronized c hm] at h
    rw [drainStep_of_synchronized c (s := s.appendAll ys) hm, syncStep_appendAll_of_again c h]
  | scanning =>
    rw [drainStep_of_scanning c hm] at h
    rw [drainStep_of_scanning c (s := s.appendAll ys) hm, scanStep_appendAll_of_again h]

/-- Bytes that `SCAN_STEP` may pass over can be dropped before it, as long as it would keep three. -/
theorem scanStep_dropFront {s : State} {k : Nat} (h : ∀ j < k, ¬ Config.startBytes <+: s.rxbuf.drop j)
    (hk : k + min 3 s.rxbuf.length ≤ s.rxbuf.length) : scanStep (s.dropFront k) = scanStep s := by
  have hfind := findStart_drop h
  cases hd : findStart (s.rxbuf.drop k) with
  | some i =>
    rw [hd, Option.map_some] at hfind
    rw [scanStep, scanStep, State.dropFront_rxbuf, hd, hfind]
    simp [State.resumeAt, State.dropFront, State.setMode, Nat.add_comm i k, Nat.add_assoc]
  | none =>
    rw [hd, Option.map_none] at hfind
    have hcount : k + (s.rxbuf.length - k - min Config.scanKeep (s.rxbuf.length - k)) =
        s.rxbuf.length - min Config.scanKeep s.rxbuf.length := by
      rw [Config.scanKeep]
      omega
    rw [scanStep, scanStep, State.dropFront_rxbuf, hd, hfind]
    simp [State.dropFront, hcount, Nat.add_assoc]

/-- After a *wait*, with more bytes behind, `DRAIN` goes as if the round that said so had not been. -/
theorem drain_appendAll_of_wait {s t : State} (h : drainStep c s = (.wait, t)) (ys : List Byte) :
    drain c (t.appendAll ys) = drain c (s.appendAll ys) := by
  cases hm : s.rxmode with
  | synchronized =>
    rw [drainStep_of_synchronized c hm] at h
    rcases syncStep_cases c s with ⟨_, e⟩ | ⟨f, len, _, _, _, e⟩ | ⟨k, _, _, e⟩ <;> rw [e] at h <;> cases h
    rfl
  | scanning =>
    rw [drainStep_of_scanning c hm] at h
    rcases scanStep_cases s with ⟨i, _, e⟩ | ⟨hnone, e⟩ <;> rw [e] at h <;> cases h
    apply drain_congr
    rw [← State.appendAll_dropFront ys (Nat.sub_le _ _), drainStep_of_scanning c (s := s.appendAll ys) hm,
      drainStep_of_scanning c (s := (s.appendAll ys).dropFront _) hm]
    refine scanStep_dropFront (fun j hj => (start_at_append_iff ?_ ys).not.mpr (findStart_none hnone j)) ?_
    · rw [Config.scanKeep] at hj
      omega
    · rw [State.appendAll_rxbuf, List.length_append, Config.scanKeep]
      omega

/-- A `DRAIN` before more bytes are appended does not show after the next (R120). -/
theorem drain_appendAll_drain (s : State) (ys : List Byte) :
    drain c ((drain c s).appendAll ys) = drain c (s.appendAll ys) := by
  induction s using drain_rounds_induct c with
  | wait s t h => rw [drain_of_wait c h, drain_appendAll_of_wait c h]
  | again s t h ih => rw [drain_of_again c h, ih, drain_of_again c (drainStep_appendAll_of_again c h ys)]

/-- `DRAIN` leaves a drained buffer as it is (R24). -/
theorem drain_of_drained {s : State} (h : Drained c s) : drain c s = s := by
  obtain ⟨hsync, hscan⟩ := h
  cases hm : s.rxmode with
  | synchronized => exact drain_of_incomplete c hm (hsync hm)
  | scanning =>
    obtain ⟨hlen, hstart⟩ := hscan hm
    refine drain_of_wait c ?_
    rw [drainStep_of_scanning c hm, scanStep, findStart_eq_none_of_not_containsStart hstart,
      Nat.min_eq_right hlen, Nat.sub_self]
    rfl

theorem Quiescent.drain_eq {c : Cfg} {s : State} (h : Quiescent c s) : Machine.drain c s = s := by
  by_cases ho : s.status = .opened
  · exact drain_of_drained c (h.1 ho).2
  · exact drain_of_incomplete c (h.2 ho).2 h.incomplete

/-! ### `RX_CHUNK` of bytes that do not overflow the buffer (R119, R120) -/

theorem rxByteAnswered_status_of_rxFatal {b : Byte} {s : State} (h : (rxByte c b s).1 = .rxFatal) :
    (rxByteAnswered c b s).status = .fatal := by
  unfold rxByteAnswered
  rcases rxByte_cases c b s with ⟨_, e⟩ | ⟨_, _, e⟩ | ⟨_, _, e⟩ <;> rw [e] at h ⊢
  · cases h
  · rfl
  · cases h

theorem rxChunk_cons_of_ne_rxFatal {b : Byte} {s : State} (h : (rxByte c b s).1 ≠ .rxFatal)
    (rest : List Byte) : rxChunk c (b :: rest) s = rxChunk c rest (rxByteAnswered c b s) := if_neg h

/-- The first byte of a chunk that ends `OPEN` did not overflow the buffer. -/
theorem rxByte_ne_rxFatal_of_opened {b : Byte} {rest : List Byte} {s : State}
    (h : (rxChunk c (b :: rest) s).status = .opened) : (rxByte c b s).1 ≠ .rxFatal := by
  intro hfatal
  rw [rxChunk, if_pos hfatal, rxByteAnswered_status_of_rxFatal c hfatal] at h
  cases h

theorem rxByteAnswered_of_not_opened (b : Byte) {s : State} (h : s.status ≠ .opened) :
    rxByteAnswered c b s = s.answer (.rx .rxRefusedNotOpen) := by
  rw [rxByteAnswered, rxByte, if_pos h]

/-- The byte at a full buffer makes the fatal entry (R106). -/
theorem rxByteAnswered_of_full (b : Byte) {s : State} (ho : s.status = .opened)
    (hfull : c.bufMax ≤ s.rxbuf.length) :
    rxByteAnswered c b s = (s.raiseFatal .bufferOverflow).answer (.rx .rxFatal) := by
  rw [rxByteAnswered, rxByte, if_neg (not_not.mpr ho), if_pos hfull]

/-- A byte that is received `OPEN` and leaves `OPEN` had room. -/
theorem rxByteAnswered_of_opened {b : Byte} {s : State} (h : (rxByteAnswered c b s).status = .opened) :
    s.status = .opened ∧ rxByteAnswered c b s = (drain c (s.append b)).answer (.rx .rxDone) := by
  by_cases ho : s.status = .opened
  · refine ⟨ho, rxByteAnswered_of_room c b ho ?_⟩
    by_contra hfull
    rw [rxByteAnswered_of_full c b ho (Nat.not_lt.mp hfull)] at h
    cases h
  · rw [rxByteAnswered_of_not_opened c b ho] at h
    exact absurd h ho

theorem opened_of_rxChunk_opened {bytes : List Byte} {s : State}
    (h : (rxChunk c bytes s).status = .opened) : s.status = .opened := by
  induction bytes generalizing s with
  | nil => exact h
  | cons b rest ih =>
    rw [rxChunk_cons_of_ne_rxFatal c (rxByte_ne_rxFatal_of_opened c h)] at h
    exact (rxByteAnswered_of_opened c (ih h)).1

/-- Two chunks are one, where the one ends `OPEN` (R120). -/
theorem rxChunk_append_of_opened {xs ys : List Byte} {s : State}
    (h : (rxChunk c (xs ++ ys) s).status = .opened) :
    rxChunk c (xs ++ ys) s = rxChunk c ys (rxChunk c xs s) := by
  induction xs generalizing s with
  | nil => rfl
  | cons b rest ih =>
    have hnf := rxByte_ne_rxFatal_of_opened c h
    rw [List.cons_append, rxChunk_cons_of_ne_rxFatal c hnf] at h ⊢
    rw [rxChunk_cons_of_ne_rxFatal c hnf, ih h]

/-- Received byte by byte behind a `DRAIN`, or appended at once and drained: the receive side is the
same (R120). -/
theorem rxChunk_sameReceiveSide_drain {bytes : List Byte} {s u : State}
    (hs : SameReceiveSide (drain c u) s) (h : (rxChunk c bytes s).status = .opened) :
    SameReceiveSide (drain c (u.appendAll bytes)) (rxChunk c bytes s) := by
  induction bytes generalizing s u with
  | nil => rwa [State.appendAll_nil]
  | cons b rest ih =>
    have hnf := rxByte_ne_rxFatal_of_opened c h
    rw [rxChunk_cons_of_ne_rxFatal c hnf] at h ⊢
    obtain ⟨_, hdone⟩ := rxByteAnswered_of_opened c (opened_of_rxChunk_opened c h)
    have hnext : drain c ((drain c u).append b) = drain c (u.append b) := drain_appendAll_drain c u [b]
    rw [← State.append_appendAll]
    refine ih ?_ h
    rw [hdone, ← hnext]
    exact ((hs.append b).drain c).trans (.answer _ _)

end draining

/-! ### The reading of the stream as a `DRAIN` (R121) -/

/-- A reader at `w` as a state: it holds everything received from its position on. -/
def Walk.state (received : List Byte) (w : Walk) : State :=
  { State.reset with
    rxbuf := received.drop w.pos, rxmode := w.mode, rxbase := w.pos, rxev := w.events }

/-- The receive side stands where the reading `w` of `received` stands, as `StandsAt` has it of the whole
reading (R121, R15). -/
def StandsWhere (received : List Byte) (w : Walk) (s : State) : Prop :=
  s.rxev = w.events ∧ s.rxmode = w.mode ∧ (s.rxmode = .synchronized → s.rxbase = w.pos) ∧
  (s.rxmode = .scanning → s.rxbase = max w.pos (received.length - 3)) ∧ s.rxbuf = received.drop s.rxbase

theorem standsAt_iff {c : Cfg} {received : List Byte} {s : State} :
    StandsAt c received s ↔ StandsWhere received (streamWalk c received) s := Iff.rfl

section reading
variable (c : Cfg) {received : List Byte} {w : Walk}

theorem Walk.state_rxbuf (received : List Byte) (w : Walk) :
    (w.state received).rxbuf = received.drop w.pos := rfl

theorem Walk.state_rxbase (received : List Byte) (w : Walk) : (w.state received).rxbase = w.pos := rfl

theorem Walk.state_emit (e : Event) :
    (w.state received).emit e = Walk.state received { w with events := w.events ++ [e] } := rfl

theorem Walk.state_dropFront (k : Nat) :
    (w.state received).dropFront k = Walk.state received { w with pos := w.pos + k } := by
  simp [Walk.state, State.dropFront]

theorem Walk.state_raiseWarn (k : WarnKind) : (w.state received).raiseWarn k =
    Walk.state received { pos := w.pos + 1, mode := .scanning, events := w.events ++ [.warn k] } :=
  Walk.state_dropFront (w := { w with mode := .scanning, events := w.events ++ [.warn k] }) 1

theorem Walk.state_resumeAt (i : Nat) : (w.state received).resumeAt i =
    Walk.state received { w with pos := w.pos + i, mode := .synchronized } :=
  congrArg (State.setMode · .synchronized) (Walk.state_dropFront i)

theorem walkFuel_of_incomplete (fuel : Nat) (hm : w.mode = .synchronized)
    (h : (tryDecode c (received.drop w.pos)).incomplete) : walkFuel c received (fuel + 1) w = w := by
  rcases h with h | h <;> simp only [walkFuel, hm, h]

theorem walkFuel_of_ok (fuel : Nat) (hm : w.mode = .synchronized) {f : Frame} {len : Nat}
    (h : tryDecode c (received.drop w.pos) = .ok f len) :
    walkFuel c received (fuel + 1) w =
      walkFuel c received fuel { w with pos := w.pos + len, events := w.events ++ [.frame f] } := by
  simp only [walkFuel, hm, h]

theorem walkFuel_of_warns (fuel : Nat) (hm : w.mode = .synchronized) {k : WarnKind}
    (h : (tryDecode c (received.drop w.pos)).Warns k) :
    walkFuel c received (fuel + 1) w = walkFuel c received fuel
      { pos := w.pos + 1, mode := .scanning, events := w.events ++ [.warn k] } := by
  rcases h with ⟨h, rfl⟩ | ⟨h, rfl⟩ | ⟨h, rfl⟩ <;> simp only [walkFuel, hm, h]

theorem walkFuel_of_findStart_some (fuel : Nat) (hm : w.mode = .scanning) {i : Nat}
    (h : findStart (received.drop w.pos) = some i) :
    walkFuel c received (fuel + 1) w =
      walkFuel c received fuel { w with pos := w.pos + i, mode := .synchronized } := by
  simp only [walkFuel, hm, h]

theorem walkFuel_of_findStart_none (fuel : Nat) (hm : w.mode = .scanning)
    (h : findStart (received.drop w.pos) = none) : walkFuel c received (fuel + 1) w = w := by
  simp only [walkFuel, hm, h]

/-- A synchronized reader that waits has its whole state where it stands. -/
theorem Walk.state_standsWhere (hm : w.mode = .synchronized) : StandsWhere received w (w.state received) :=
  ⟨rfl, rfl, fun _ => rfl, fun hs => (nomatch hm.symm.trans hs), rfl⟩

/-- A scanning reader that waits has the last three bytes received, or fewer (R115, R121). -/
theorem Walk.state_dropFront_standsWhere (hm : w.mode = .scanning) (hpos : w.pos ≤ received.length) :
    StandsWhere received w ((w.state received).dropFront
      ((w.state received).rxbuf.length - min Config.scanKeep (w.state received).rxbuf.length)) := by
  refine ⟨rfl, rfl, fun hs => (nomatch hm.symm.trans hs), fun _ => ?_, ?_⟩
  · rw [State.dropFront_rxbase, Walk.state_rxbuf, List.length_drop, Config.scanKeep, Walk.state_rxbase]
    omega
  · rw [State.dropFront_rxbase, State.dropFront_rxbuf, Walk.state_rxbuf, List.drop_drop, Walk.state_rxbase]

/-- One move of the reading is one round of `DRAIN` on its state: both end, or both go on alike. -/
theorem walkFuel_succ_cases (fuel : Nat) (hpos : w.pos ≤ received.length) :
    (∃ t, drainStep c (w.state received) = (.wait, t) ∧ StandsWhere received w t ∧
      walkFuel c received (fuel + 1) w = w) ∨
    (∃ w', w'.pos ≤ received.length ∧ drainStep c (w.state received) = (.again, w'.state received) ∧
      walkFuel c received (fuel + 1) w = walkFuel c received fuel w') := by
  cases hm : w.mode with
  | synchronized =>
    rw [drainStep_of_synchronized c (s := w.state received) hm]
    rcases syncStep_cases c (w.state received) with ⟨hinc, e⟩ | ⟨f, len, hok, _, hlen, e⟩ | ⟨k, h8, hbad, e⟩
    · exact .inl ⟨_, e, Walk.state_standsWhere hm, walkFuel_of_incomplete c fuel hm hinc⟩
    · rw [Walk.state_rxbuf, List.length_drop] at hlen
      rw [e, Walk.state_emit, Walk.state_dropFront]
      exact .inr ⟨_, by dsimp only; omega, rfl, walkFuel_of_ok c fuel hm hok⟩
    · rw [Walk.state_rxbuf, List.length_drop] at h8
      rw [e, Walk.state_raiseWarn]
      exact .inr ⟨_, by dsimp only; omega, rfl, walkFuel_of_warns c fuel hm hbad⟩
  | scanning =>
    rw [drainStep_of_scanning c (s := w.state received) hm]
    rcases scanStep_cases (w.state received) with ⟨i, hi, e⟩ | ⟨hnone, e⟩
    · have h4 := findStart_add_four_le hi
      rw [Walk.state_rxbuf, List.length_drop] at h4
      rw [e, Walk.state_resumeAt]
      exact .inr ⟨_, by dsimp only; omega, rfl, walkFuel_of_findStart_some c fuel hm hi⟩
    · exact .inl ⟨_, e, Walk.state_dropFront_standsWhere hm hpos, walkFuel_of_findStart_none c fuel hm hnone⟩

theorem drain_standsWhere {fuel : Nat} (hpos : w.pos ≤ received.length)
    (hfuel : drainMeasure (w.state received) < fuel) :
    StandsWhere received (walkFuel c received fuel w) (drain c (w.state received)) := by
  induction fuel generalizing w with
  | zero => omega
  | succ fuel ih =>
    rcases walkFuel_succ_cases c fuel hpos with ⟨t, hwait, hstands, hwalk⟩ | ⟨w', hpos', hagain, hwalk⟩
    · rwa [hwalk, drain_of_wait c hwait]
    · have hlt := drainStep_again_measure_lt c hagain
      rw [hwalk, drain_of_again c hagain]
      exact ih hpos' (by omega)

/-- Everything received, appended at once to the reset state and drained, stands at its reading. -/
theorem drain_reset_standsAt (received : List Byte) :
    StandsAt c received (drain c (State.reset.appendAll received)) := by
  refine standsAt_iff.mpr (drain_standsWhere c (w := { pos := 0, mode := .synchronized, events := [] })
    (Nat.zero_le _) ?_)
  rw [drainMeasure_of_synchronized rfl]
  exact Nat.lt_succ_of_le (Nat.le_succ _)

theorem StandsAt.congr {c : Cfg} {s t : State} (h : StandsAt c received s) (hst : SameReceiveSide s t) :
    StandsAt c received t := by
  unfold StandsAt at *
  rwa [hst.rxev, hst.rxmode, hst.rxbase, hst.rxbuf]

/-- The reading determines the receive side. -/
theorem StandsAt.sameReceiveSide {c : Cfg} {s t : State} (hs : StandsAt c received s)
    (ht : StandsAt c received t) (hstatus : t.status = s.status) : SameReceiveSide s t := by
  obtain ⟨hev, hmode, hsync, hscan, hbuf⟩ := hs
  obtain ⟨hev', hmode', hsync', hscan', hbuf'⟩ := ht
  have hmodes : t.rxmode = s.rxmode := hmode'.trans hmode.symm
  have hbase : t.rxbase = s.rxbase := by
    cases hm : s.rxmode with
    | synchronized => rw [hsync hm, hsync' (hmodes.trans hm)]
    | scanning => rw [hscan hm, hscan' (hmodes.trans hm)]
  exact ⟨by rw [hbuf', hbuf, hbase], hmodes, hstatus, hbase, hev'.trans hev.symm⟩

/-- An `OPEN` receive side that stands at a reading is what `DRAIN` makes of everything received. -/
theorem StandsAt.sameReceiveSide_drain {c : Cfg} {s : State} (h : StandsAt c received s)
    (ho : s.status = .opened) : SameReceiveSide (drain c (State.reset.appendAll received)) s :=
  (drain_reset_standsAt c received).sameReceiveSide h
    (ho.trans (drain_status c (State.reset.appendAll received)).symm)

/-- Received bytes lead from the reading of what was received before to the reading of all of it (R121). -/
theorem StandsAt.rxChunk {c : Cfg} {s : State} {bytes : List Byte} (h : StandsAt c received s)
    (ho : (rxChunk c bytes s).status = .opened) :
    StandsAt c (received ++ bytes) (rxChunk c bytes s) := by
  have hside := rxChunk_sameReceiveSide_drain c
    (h.sameReceiveSide_drain (opened_of_rxChunk_opened c ho)) ho
  refine StandsAt.congr ?_ hside
  exact drain_reset_standsAt c (received ++ bytes)

theorem ReadsAStream.congr {c : Cfg} {s t : State} (h : ReadsAStream c s) (hst : SameReceiveSide s t) :
    ReadsAStream c t := by
  intro ho
  obtain ⟨received, hat⟩ := h (hst.status.symm.trans ho)
  exact ⟨received, hat.congr hst⟩

theorem ReadsAStream.closeConnection {c : Cfg} {s : State} (h : ReadsAStream c s) :
    ReadsAStream c (closeConnection s) := by
  unfold Machine.closeConnection
  split
  · exact fun ho => nomatch ho
  · exact h

theorem ReadsAStream.rxByteAnswered {c : Cfg} {s : State} (h : ReadsAStream c s) (b : Byte) :
    ReadsAStream c (rxByteAnswered c b s) := by
  rw [← rxChunk_singleton]
  intro ho
  obtain ⟨received, hat⟩ := h (opened_of_rxChunk_opened c ho)
  exact ⟨received ++ [b], hat.rxChunk ho⟩

end reading

/-- Each of the four operations of R8 keeps the receive side at the reading of a stream. -/
theorem exec_readsAStream {i : Instr} {s t : State} (hi : i.isOperation = true)
    (hs : ReadsAStream Config.cfg s) (h : exec i s = .next t) : ReadsAStream Config.cfg t := by
  cases i with
  | reset =>
    cases h
    exact fun _ => ⟨[], (reset_standsAt_nil Config.cfg).congr ⟨rfl, rfl, rfl, rfl, rfl⟩⟩
  | close =>
    cases h
    exact hs.closeConnection
  | rxByte b =>
    cases h
    exact hs.rxByteAnswered b
  | txSend cmd args => exact hs.congr (exec_txSend_sameReceiveSide h)
  | _ => cases hi

theorem ReachedByOperations.readsAStream {s t : State} (h : ReachedByOperations s t)
    (hs : ReadsAStream Config.cfg s) : ReadsAStream Config.cfg t := by
  obtain ⟨ops, hops, hrun⟩ := h
  induction ops generalizing s with
  | nil =>
    cases hrun
    exact hs
  | cons i rest ih =>
    obtain ⟨hi, hrest⟩ := List.forall_mem_cons.mp hops
    obtain ⟨u, hu, hrun⟩ := execAll_cons_next hrun
    exact ih (exec_readsAStream hi hs hu) hrest hrun

/-- Settles O24: a step is a run of operations (`step_reachedByOperations`), each of which keeps the reading
(`exec_readsAStream`). -/
theorem readingOfTheStreamIsKeptByEveryStep : Obligations.ReadingOfTheStreamIsKeptByEveryStep :=
  fun _ _ hs h => (step_reachedByOperations h).readsAStream (hs.congr ⟨rfl, rfl, rfl, rfl, rfl⟩)

/-- Settles O27: reset stands at the reading of no bytes, and receiving leads from there to that of all
(`StandsAt.rxChunk`). -/
theorem receptionIsTheReadingOfTheStream : Obligations.ReceptionIsTheReadingOfTheStream := by
  intro bytes t h ho
  cases h
  exact (reset_standsAt_nil Config.cfg).rxChunk ho

/-- Settles O26: a quiescent state is its own `DRAIN` (`Quiescent.drain_eq`), so receiving is appending and
draining (`rxChunk_sameReceiveSide_drain`); the cut in two is `rxChunk_append_of_opened`. -/
theorem receptionDoesNotDependOnHowTheStreamIsCut :
    Obligations.ReceptionDoesNotDependOnHowTheStreamIsCut := by
  intro s t hq ho
  refine ⟨fun bytes h => ?_, fun xs ys h => ⟨_, rfl, ?_⟩⟩
  · cases h
    have hself : SameReceiveSide (drain Config.cfg s) s := hq.drain_eq.symm ▸ ⟨rfl, rfl, rfl, rfl, rfl⟩
    have hside := rxChunk_sameReceiveSide_drain Config.cfg hself ho
    exact ⟨hside.rxev, hside.rxbuf, hside.rxmode, hside.rxbase⟩
  · cases h
    exact congrArg Host.Outcome.next (rxChunk_append_of_opened Config.cfg ho).symm

/-! ### What one byte does (R105 to R107, R110 to R112, R118) -/

/-- Settles O6, by `rxByteAnswered_of_not_opened`. -/
theorem receivedByteIsRefusedUnlessOpen : Obligations.ReceivedByteIsRefusedUnlessOpen :=
  fun b _ h => congrArg Host.Outcome.next (rxByteAnswered_of_not_opened Config.cfg b h)

/-- Settles O7, by `rxByteAnswered_of_full`. -/
theorem receivedByteAtFullBufferIsFatal : Obligations.ReceivedByteAtFullBufferIsFatal :=
  fun b _ ho hfull => congrArg Host.Outcome.next (rxByteAnswered_of_full Config.cfg b ho hfull.ge)

/-- A byte received with room, as an instruction (R107). -/
theorem exec_rxByte_of_room (b : Byte) {s : State} (ho : s.status = .opened)
    (hroom : s.rxbuf.length < Config.cfg.bufMax) :
    exec (.rxByte b) s = .next ((drain Config.cfg (s.append b)).answer (.rx .rxDone)) :=
  congrArg Host.Outcome.next (rxByteAnswered_of_room Config.cfg b ho hroom)

/-- Settles O8: `DRAIN` leaves the earlier answers (`drain_results`). -/
theorem receivedByteIsAppendedThenDrained : Obligations.ReceivedByteIsAppendedThenDrained := by
  intro b s ho hroom
  rw [exec_rxByte_of_room b ho hroom, State.answer, drain_results]
  rfl

/-- A byte that leaves the frame at the front unfinished is held (R110). -/
theorem exec_rxByte_of_incomplete (b : Byte) {s : State} (ho : s.status = .opened)
    (hm : s.rxmode = .synchronized) (hroom : s.rxbuf.length < Config.cfg.bufMax)
    (h : (tryDecode Config.cfg (s.rxbuf ++ [b])).incomplete) :
    exec (.rxByte b) s = .next ((s.append b).answer (.rx .rxDone)) := by
  rw [exec_rxByte_of_room b ho hroom, drain_of_incomplete Config.cfg (s := s.append b) hm h]

/-- Settles O9: with at most six bytes held there is room, and the byte makes no eighth. -/
theorem byteOfAnUnfinishedFrameIsHeld : Obligations.ByteOfAnUnfinishedFrameIsHeld := by
  refine ⟨fun b s ho hm hroom h => exec_rxByte_of_incomplete b ho hm hroom h, fun b s ho hm hsix => ?_⟩
  have hcap : 14 ≤ Config.cfg.bufMax := openParametersMeetTheirRequirements.1
  refine exec_rxByte_of_incomplete b ho hm (by omega) (tryDecode_incomplete_of_length_lt _ ?_)
  rw [List.length_append, List.length_singleton]
  omega

/-- What the first round of `DRAIN` reports comes first, and what it drops stays dropped (R108, R118). -/
theorem drain_of_again_reports (c : Cfg) {s t : State} (h : drainStep c s = (.again, t)) :
    t.rxbase ≤ (drain c s).rxbase ∧ t.rxev <+: (drain c s).rxev := by
  obtain ⟨k, _, hbase, _⟩ := drain_advances c t
  rw [drain_of_again c h]
  exact ⟨by omega, drainFuel_rxev_prefix c _ t⟩

/-- Where the first round on the buffer with the byte goes on to `u`, the byte reports what `u` does first. -/
theorem exec_rxByte_of_syncStep_again {b : Byte} {s u : State} (ho : s.status = .opened)
    (hm : s.rxmode = .synchronized) (hroom : s.rxbuf.length < Config.cfg.bufMax)
    (h : syncStep Config.cfg (s.append b) = (.again, u)) :
    ∃ t, exec (.rxByte b) s = .next t ∧ t.status = .opened ∧ u.rxbase ≤ t.rxbase ∧ u.rxev <+: t.rxev := by
  refine ⟨_, exec_rxByte_of_room b ho hroom, (drain_status _ _).trans ho, ?_⟩
  rw [← drainStep_of_synchronized Config.cfg (s := s.append b) hm] at h
  exact drain_of_again_reports Config.cfg h

/-- Settles O10: the verdict is the first round of `DRAIN` (`exec_rxByte_of_syncStep_again`). -/
theorem byteThatSettlesTheFrontReportsItFirst : Obligations.ByteThatSettlesTheFrontReportsItFirst :=
  fun b s ho hm hroom =>
    ⟨fun _ _ h => exec_rxByte_of_syncStep_again ho hm hroom (syncStep_of_ok _ (s := s.append b) h),
      fun _ h => exec_rxByte_of_syncStep_again ho hm hroom (syncStep_of_warns _ (s := s.append b) h)⟩

/-! ### `SYNC_STEP` and `SCAN_STEP` run alone (R109 to R115) -/

/-- `SYNC_STEP` alone, as an instruction, from what the function does (log entry 3). -/
theorem exec_syncStep_of_eq {s t : State} {r : StepResult} (h : syncStep Config.cfg s = (r, t)) :
    exec .syncStep s = .next (t.answer (.step r)) := by
  change execSyncStep s = _
  rw [execSyncStep, h]

/-- `SCAN_STEP` alone, as an instruction, from what the function does (log entry 3). -/
theorem exec_scanStep_of_eq {s t : State} {r : StepResult} (h : scanStep s = (r, t)) :
    exec .scanStep s = .next (t.answer (.step r)) := by
  change execScanStep s = _
  rw [execScanStep, h]

/-- Settles O19, by `syncStep_of_incomplete` and `syncStep_of_warns`. -/
theorem syncStepWaitsOrEntersScanning : Obligations.SyncStepWaitsOrEntersScanning :=
  fun _ => ⟨fun h => exec_syncStep_of_eq (syncStep_of_incomplete _ h),
    fun _ h => exec_syncStep_of_eq (syncStep_of_warns _ h)⟩

/-- Settles O18: an encoded frame at the front decodes to itself, and its length is what is dropped. -/
theorem syncStepEmitsAWholeFrame : Obligations.SyncStepEmitsAWholeFrame := by
  intro cmd args rest s hargs hbuf
  have hok : tryDecode Config.cfg s.rxbuf = .ok { cmd := cmd, args := args } (frameLen args.length) :=
    hbuf ▸ tryDecode_encodeFrame_append Config.cfg rest hargs
  have hrest : s.rxbuf.drop (frameLen args.length) = rest := by
    rw [hbuf, ← encodeFrame_length Config.cfg cmd args, List.drop_left]
  rw [exec_syncStep_of_eq (syncStep_of_ok _ hok), ← hrest]
  rfl

/-- Settles O20: the least offset of `START` is what the search finds (`findStart_eq_some`). -/
theorem scanStepResumesAtTheFirstStartCode : Obligations.ScanStepResumesAtTheFirstStartCode := by
  intro pre post s hbuf hleast
  have hrest : s.rxbuf.drop pre.length = Config.startBytes ++ post := by
    rw [hbuf, List.append_assoc, List.drop_left]
  have hfind : findStart s.rxbuf = some pre.length :=
    findStart_eq_some (hrest ▸ List.prefix_append _ post) hleast
  have hscan : scanStep s = (.again, s.resumeAt pre.length) := by rw [scanStep, hfind]
  rw [exec_scanStep_of_eq hscan, ← hrest]
  rfl

/-- Settles O21: dropping all but `min(3, len)` bytes is dropping `len - 3`. -/
theorem scanStepKeepsThreeBytesWithoutAStartCode :
    Obligations.ScanStepKeepsThreeBytesWithoutAStartCode := by
  intro s h
  have hcount : s.rxbuf.length - min Config.scanKeep s.rxbuf.length = s.rxbuf.length - 3 := by
    rw [Config.scanKeep]
    omega
  have hscan : scanStep s = (.wait, s.dropFront (s.rxbuf.length - 3)) := by
    rw [scanStep, findStart_eq_none_of_not_containsStart h, hcount]
  exact exec_scanStep_of_eq hscan

/-! ### `DRAIN` and `RX_CHUNK` (R108, R119) -/

/-- Settles O16: `drain_of_wait` and `drain_of_again`, with the round of the current mode written out. -/
theorem drainRepeatsTheStepOfItsModeUntilWait : Obligations.DrainRepeatsTheStepOfItsModeUntilWait := by
  intro c s
  have hround : (if s.rxmode = .synchronized then syncStep c s else scanStep s) = drainStep c s := by
    cases hm : s.rxmode with
    | synchronized => rw [if_pos rfl, drainStep_of_synchronized c hm]
    | scanning => rw [if_neg nofun, drainStep_of_scanning c hm]
  rw [hround]
  rcases hd : drainStep c s with ⟨_ | _, t⟩
  · exact drain_of_wait c hd
  · exact drain_of_again c hd

/-- `RX_BYTE` adds its answer to those before (log entry 7). -/
theorem rxByteAnswered_results (c : Cfg) (b : Byte) (s : State) :
    (rxByteAnswered c b s).results = s.results ++ [.rx (rxByte c b s).1] := by
  unfold rxByteAnswered
  rcases rxByte_cases c b s with ⟨_, e⟩ | ⟨_, _, e⟩ | ⟨_, _, e⟩ <;> rw [e]
  · rfl
  · rfl
  · exact congrArg (· ++ _) (drain_results c _)

/-- Settles O12: `RX_CHUNK` recurs as the statement does, and the answer is `rxByteAnswered_results`. -/
theorem chunkIsItsBytesUntilAFatalOne : Obligations.ChunkIsItsBytesUntilAFatalOne := by
  refine fun s => ⟨rfl, fun b rest => ⟨_, _, rfl, rxByteAnswered_results Config.cfg b s, ?_⟩⟩
  change Host.Outcome.next (rxChunk Config.cfg (b :: rest) s) = _
  rw [rxChunk]
  split <;> rfl

end Sys2Proof.Machine
end

section
/-! SUPPORT. The statements of spec/44_session_control.md: what `CLOSE` does (R131), and what stands on the three
event ports (R133) with the codes and classes of the conditions (R140, R141). -/

namespace Sys2Proof.Machine

/-! ### `CLOSE` (R131) -/

theorem closeConnection_of_opened {s : State} (h : s.status = .opened) :
    closeConnection s = { s with status := .closed, rxbuf := [], rxmode := .synchronized } := if_pos h

theorem closeConnection_of_not_opened {s : State} (h : s.status ≠ .opened) : closeConnection s = s := if_neg h

/-- Settles O2: `CLOSE` always answers, with `closeConnection` in its two cases. -/
theorem closeReleasesAnOpenInstanceOnly : Obligations.CloseReleasesAnOpenInstanceOnly :=
  fun _ => ⟨fun ho => congrArg Host.Outcome.next (closeConnection_of_opened ho),
    fun hne => congrArg Host.Outcome.next (closeConnection_of_not_opened hne)⟩

/-! ### One event on the three ports (R133) -/

section ports
variable (s : State)

/-- A view of the trace grows by what it shows of the emitted event. -/
theorem State.emit_rxev_filterMap {α : Type} (view : Event → Option α) (e : Event) :
    (s.emit e).rxev.filterMap view = s.rxev.filterMap view ++ (view e).toList := by
  rw [State.emit_rxev, List.filterMap_append]
  cases h : view e <;> simp [h]

@[simp] theorem State.emit_framePort (e : Event) :
    (s.emit e).framePort = s.framePort ++ e.frameOut.toList := s.emit_rxev_filterMap _ e

@[simp] theorem State.emit_warnPort (e : Event) :
    (s.emit e).warnPort = s.warnPort ++ e.warnOut.toList := s.emit_rxev_filterMap _ e

@[simp] theorem State.emit_fatalPort (e : Event) :
    (s.emit e).fatalPort = s.fatalPort ++ e.fatalOut.toList := s.emit_rxev_filterMap _ e

/-- A frame appears on `FRAME_OUT` alone. -/
theorem State.emit_frame_ports (f : Frame) :
    (s.emit (.frame f)).framePort = s.framePort ++ [f.payload] ∧
      (s.emit (.frame f)).warnPort = s.warnPort ∧ (s.emit (.frame f)).fatalPort = s.fatalPort := by
  simp [Event.frameOut, Event.warnOut, Event.fatalOut]

/-- A corruption is reported on `WARN_OUT` alone. -/
theorem State.emit_warn_ports (k : WarnKind) :
    (s.emit (.warn k)).warnPort = s.warnPort ++ [k.code] ∧
      (s.emit (.warn k)).framePort = s.framePort ∧ (s.emit (.warn k)).fatalPort = s.fatalPort := by
  simp [Event.frameOut, Event.warnOut, Event.fatalOut]

/-- A fatal cause is reported on `FATAL_OUT` alone. -/
theorem State.emit_fatal_ports (k : FatalCause) :
    (s.emit (.fatal k)).fatalPort = s.fatalPort ++ [k.code] ∧
      (s.emit (.fatal k)).framePort = s.framePort ∧ (s.emit (.fatal k)).warnPort = s.warnPort := by
  simp [Event.frameOut, Event.warnOut, Event.fatalOut]

end ports

/-- The 16 bits of `argc` hold the argument count of any frame that can be encoded (R39, R80). -/
theorem Frame.payload_argc_toNat {f : Frame} (h : f.args.length ≤ 65535) :
    f.payload.argc.toNat = f.args.length := by
  rw [Frame.payload, BitVec.toNat_ofNat]
  omega

/-! ### Codes, classes and effects of the conditions (R140, R141) -/

/-- The class of a condition, read off its code. -/
theorem Condition.conditionClass_cases (x : Condition) :
    (x.conditionClass = .success ↔ x.code = 0) ∧
    (x.conditionClass = .transient ↔ x.code = 1 ∨ x.code = 2) ∧
    (x.conditionClass = .recoverableCorruption ↔ x.code = 3 ∨ x.code = 4 ∨ x.code = 5) ∧
    (x.conditionClass = .resourceExhaustion ↔ x.code = 6) ∧
    (x.conditionClass = .transportFailure ↔ x.code = 7) := by
  cases x <;> decide

/-- The fatal conditions are those after which the instance is no longer `OPEN`. -/
theorem Condition.fatal_iff_statusAfter_ne_opened (x : Condition) :
    x.conditionClass.fatal = true ↔ x.statusAfter ≠ .opened := by
  cases x <;> decide

/-- A corruption leaves the instance `OPEN`. -/
theorem WarnKind.condition_statusAfter (k : WarnKind) : k.condition.statusAfter = .opened := by
  cases k <;> rfl

theorem FatalCause.condition_statusAfter (k : FatalCause) : k.condition.statusAfter = .fatal := by
  cases k; rfl

/-- The entries of R149 and R151, and `CLOSE`, give an `OPEN` instance the status of their condition. -/
theorem status_after_condition {s : State} (ho : s.status = .opened) :
    (∀ k : WarnKind, (s.raiseWarn k).status = k.condition.statusAfter) ∧
    (∀ k : FatalCause, (s.raiseFatal k).status = k.condition.statusAfter) ∧
    (closeConnection s).status = Condition.transportFailure.statusAfter := by
  refine ⟨fun k => ?_, fun k => ?_, ?_⟩
  · rw [State.raiseWarn_status, ho, k.condition_statusAfter]
  · rw [State.raiseFatal_status, k.condition_statusAfter]
  · rw [closeConnection_of_opened ho]
    rfl

/-- Settles O29: the ports event by event, the codes of R141's table by their definition, then the classes and
the effects on the status. -/
theorem eventsAppearOnOnePortWithTheirCode : Obligations.EventsAppearOnOnePortWithTheirCode := by
  refine ⟨fun s f hargs => ?frame, fun s k => ?warn, fun s => s.emit_fatal_ports .bufferOverflow,
    fun _ _ => rfl, rfl, rfl, rfl, rfl, rfl, rfl, fun x => ?classes, fun _ ho => status_after_condition ho⟩
  case frame =>
    obtain ⟨hframe, hwarn, hfatal⟩ := s.emit_frame_ports f
    exact ⟨f.payload, hframe, rfl, Frame.payload_argc_toNat hargs, rfl, hwarn, hfatal⟩
  case warn => cases k <;> exact s.emit_warn_ports _
  case classes =>
    obtain ⟨hok, htransient, hcorrupt, hresource, htransport⟩ := x.conditionClass_cases
    exact ⟨hok, htransient, hcorrupt, hresource, htransport, x.fatal_iff_statusAfter_ne_opened⟩

end Sys2Proof.Machine
end

section
/-! SUPPORT. Totality and the two refusals (R156; R80 with log entry 11): the domain of `ENCODE` is the one check of
well-formedness, and `ENCODE` and `RX_FRAME` are the two instructions that make it. -/

namespace Sys2Proof

/-! ### The instructions that are not well formed -/

theorem argsInDomain_eq_true_iff {args : List I32} : argsInDomain args = true ↔ args.length ≤ Config.maxArgs :=
  decide_eq_true_iff

theorem argsInDomain_eq_false_iff {args : List I32} : argsInDomain args = false ↔ Config.maxArgs < args.length :=
  decide_eq_false_iff_not.trans Nat.not_le

/-- `ENCODE` and `RX_FRAME` beyond `MAX_ARGS` are the instructions that are not well formed (R59, R80). -/
theorem Instr.wellFormed_eq_false_iff (i : Instr) :
    i.wellFormed = false ↔
      ∃ cmd args, (i = .encode cmd args ∨ i = .rxFrame cmd args) ∧ 65535 < args.length := by
  constructor
  · intro h
    cases i with
    | encode cmd args => exact ⟨cmd, args, .inl rfl, argsInDomain_eq_false_iff.mp h⟩
    | rxFrame cmd args => exact ⟨cmd, args, .inr rfl, argsInDomain_eq_false_iff.mp h⟩
    | _ => cases h
  · rintro ⟨cmd, args, rfl | rfl, hargs⟩ <;> exact argsInDomain_eq_false_iff.mpr hargs

end Sys2Proof

namespace Sys2Proof.Machine

/-! ### `ENCODE` and `RX_FRAME` on each side of the domain of R80 -/

section domain
variable {cmd : U16} {args : List I32}

theorem exec_rxFrame_of_le (h : args.length ≤ Config.maxArgs) (s : State) :
    exec (.rxFrame cmd args) s = .next (rxChunk Config.cfg (encodeFrame Config.cfg cmd args) s) := if_pos h

theorem exec_encode_of_lt (h : Config.maxArgs < args.length) (s : State) :
    exec (.encode cmd args) s = .refused .encodeUndefined := if_neg (Nat.not_le.mpr h)

theorem exec_rxFrame_of_lt (h : Config.maxArgs < args.length) (s : State) :
    exec (.rxFrame cmd args) s = .refused .encodeUndefined := if_neg (Nat.not_le.mpr h)

end domain

/-! ### Every instruction, in every state -/

/-- Only `ENCODE` and `RX_FRAME` look at their operands before they answer; in the domain they answer too. -/
theorem exec_next_of_wellFormed {i : Instr} (h : i.wellFormed = true) (s : State) : ∃ t, exec i s = .next t := by
  cases i with
  | encode cmd args => exact ⟨_, exec_encode_of_le (argsInDomain_eq_true_iff.mp h) s⟩
  | rxFrame cmd args => exact ⟨_, exec_rxFrame_of_le (argsInDomain_eq_true_iff.mp h) s⟩
  | _ => exact ⟨_, rfl⟩

theorem exec_refused_of_not_wellFormed {i : Instr} (h : i.wellFormed = false) (s : State) :
    exec i s = .refused .encodeUndefined := by
  obtain ⟨cmd, args, rfl | rfl, hargs⟩ := i.wellFormed_eq_false_iff.mp h
  · exact exec_encode_of_lt hargs s
  · exact exec_rxFrame_of_lt hargs s

/-- Settles O53: the domain of R80 decides both well-formedness (`Instr.wellFormed_eq_false_iff`) and the answer. -/
theorem exactlyTheWellFormedInstructionsRun : Obligations.ExactlyTheWellFormedInstructionsRun :=
  fun i s => ⟨fun h => exec_next_of_wellFormed h s, fun h => exec_refused_of_not_wellFormed h s,
    i.wellFormed_eq_false_iff⟩

end Sys2Proof.Machine
end

section
/-! SUPPORT. The word of four bytes as a number (R7, R52, R56). -/

namespace Sys2Proof

/-- The first half of a 32-bit word counts 65536 times the second (R7, R52). -/
theorem be32_toNat (s : List Byte) (o : Nat) :
    (be32 s o).toNat = (be16 s o).toNat * 65536 + (be16 s (o + 2)).toNat := by
  rw [be32, BitVec.toNat_append, ← Nat.shiftLeft_add_eq_or_of_lt (be16 s (o + 2)).isLt, Nat.shiftLeft_eq]

/-- Four bytes as one big-endian number. -/
theorem be32_four_toNat (b0 b1 b2 b3 : Byte) : (be32 [b0, b1, b2, b3] 0).toNat =
    b0.toNat * 2 ^ 24 + b1.toNat * 2 ^ 16 + b2.toNat * 2 ^ 8 + b3.toNat := by
  rw [be32_toNat, be16_toNat, be16_toNat]
  simp only [byteAt, List.getD_cons_zero, List.getD_cons_succ]
  omega

/-- Settles O45: any four bytes decode (`decode_of_length_four`), to the word that `be32_four_toNat` counts, read as
two's complement. -/
theorem everyFourBytesAreASignedArgument : Obligations.EveryFourBytesAreASignedArgument := by
  intro b0 b1 b2 b3
  refine ⟨_, decode_of_length_four rfl, ?_⟩
  rw [BitVec.toInt_eq_toNat_cond, be32_four_toNat]
  push_cast
  split_ifs <;> omega

end Sys2Proof
end

section
/-! SUPPORT. The life of an instance and the hazards of reception: what one instruction can do to the status (R14,
R151), that nothing moves where the status is not `OPEN` (R132), frames longer than the cap (R172), garbage while
scanning (R179), where `DRAIN` ends (R117), and the candidates of a scan (R153). -/

namespace Sys2Proof.Machine

/-! ### The candidates of a scan (R114, R153) -/

/-- Settles O22: the candidate begins with `START` (`findStart_some`), which is the test of R92. -/
theorem scanCandidateNeverHasABadStartCode : Obligations.ScanCandidateNeverHasABadStartCode := by
  intro c s i hi hbad
  have hstart : Config.startBytes <+: s.rxbuf.drop i := (findStart_some hi).1
  have htake : (s.rxbuf.drop i).take 4 ≠ Config.startBytes := ((tryDecode_eq_badStartCode_iff c).mp hbad).2
  exact htake (List.prefix_iff_eq_take.mp hstart).symm

/-! ### Where `DRAIN` ends (R24, R117) -/

theorem drain_rxev_prefix (c : Cfg) (s : State) : s.rxev <+: (drain c s).rxev := drainFuel_rxev_prefix c _ s

/-- Settles O17: drained by `drain_drained`, with what was dropped counted by `drain_advances`. -/
theorem drainEndsWithNothingLeftToDo : Obligations.DrainEndsWithNothingLeftToDo := by
  intro s
  obtain ⟨k, hk, hbase, hbuf⟩ := drain_advances Config.cfg s
  refine ⟨_, rfl, drain_drained _ s, by omega, by omega, ?_, drain_rxev_prefix _ s, drain_frame _ s⟩
  rw [hbuf, hbase, Nat.add_sub_cancel_left]

/-! ### Where the status is not `OPEN` (R105, R132) -/

/-- Where the status is not `OPEN`, a chunk leaves the whole receive side alone (R105). -/
theorem rxChunk_sameReceiveSide_of_not_opened (c : Cfg) (bytes : List Byte) {s : State}
    (hn : s.status ≠ .opened) : SameReceiveSide s (rxChunk c bytes s) := by
  refine rxChunk_induct c (P := SameReceiveSide s) (fun b t ht => ?_) bytes s ⟨rfl, rfl, rfl, rfl, rfl⟩
  rw [rxByteAnswered_of_not_opened c b (ht.status.symm ▸ hn)]
  exact ht.trans (.answer t _)

/-- On an empty buffer `SCAN_STEP` has nothing to search and nothing to drop (R115). -/
theorem scanStep_of_empty {s : State} (h : s.rxbuf = []) : scanStep s = (.wait, s) := by
  rw [scanStep, h]
  rfl

/-- In a released instance only `RESET` touches the receive side: bytes are refused, `CLOSE` does nothing, and the
internal functions find nothing to do (R105, R131, R132). -/
theorem exec_sameReceiveSide_of_not_opened {i : Instr} {s t : State} (hq : Quiescent Config.cfg s)
    (hn : s.status ≠ .opened) (hi : i ≠ .reset) (h : exec i s = .next t) : SameReceiveSide s t := by
  cases exec_receiveEffect h with
  | reset => exact absurd rfl hi
  | close =>
    rw [closeConnection_of_not_opened hn]
    exact ⟨rfl, rfl, rfl, rfl, rfl⟩
  | received => exact rxChunk_sameReceiveSide_of_not_opened _ _ hn
  | drain =>
    rw [hq.drain_eq]
    exact ⟨rfl, rfl, rfl, rfl, rfl⟩
  | syncStep r =>
    rw [syncStep_of_incomplete _ hq.incomplete]
    exact .answer s r
  | scanStep r =>
    rw [scanStep_of_empty (hq.2 hn).1]
    exact .answer s r
  | untouched hs => exact hs

/-- Nothing is sent where the status is not `OPEN` (R84, R132). -/
theorem exec_txout_of_not_opened {i : Instr} {s t : State} (hn : s.status ≠ .opened) (hi : i ≠ .reset)
    (h : exec i s = .next t) : t.txout = s.txout := by
  cases htx : i.isTxSend with
  | false => exact (exec_keepsTransmitSide hi htx h).txout
  | true =>
    obtain ⟨cmd, args, rfl⟩ := Instr.eq_of_isTxSend htx
    rw [exec_txSend_of_eq (txSend_of_not_opened Config.cfg cmd hn)] at h
    cases h
    rfl

/-- Settles O3: the receive side by `exec_sameReceiveSide_of_not_opened`, `TXOUT` by `exec_txout_of_not_opened`. -/
theorem deadInstanceStaysDeadUntilReset : Obligations.DeadInstanceStaysDeadUntilReset := by
  intro i s t hq hn hi h
  obtain ⟨hbuf, hmode, hstatus, hbase, hev⟩ := exec_sameReceiveSide_of_not_opened hq hn hi h
  exact ⟨hstatus, hbuf, hmode, hbase, hev, exec_txout_of_not_opened hn hi h⟩

/-! ### Overflow (R106, R151) -/

section overflow
variable (c : Cfg)

/-- A chunk at a full buffer ends with its first byte, which makes the fatal entry (R106, R119). -/
theorem rxChunk_cons_of_full (b : Byte) (rest : List Byte) {s : State} (ho : s.status = .opened)
    (hfull : c.bufMax ≤ s.rxbuf.length) :
    rxChunk c (b :: rest) s = (s.raiseFatal .bufferOverflow).answer (.rx .rxFatal) := by
  have hfatal : (rxByte c b s).1 = .rxFatal := by rw [rxByte, if_neg (not_not.mpr ho), if_pos hfull]
  rw [rxChunk, if_pos hfatal, rxByteAnswered_of_full c b ho hfull]

/-- From `s` to `t` the buffer overflowed: `t` is released, and the report is its last event (R151). -/
structure Overflowed (s t : State) : Prop where
  status : t.status = .fatal
  rxbuf : t.rxbuf = []
  rxmode : t.rxmode = .synchronized
  rxev : ∃ evs, t.rxev = s.rxev ++ evs ++ [.fatal .bufferOverflow]

/-- Events before an overflow do not change that it is one. -/
theorem Overflowed.of_rxev_prefix {s t u : State} (h : Overflowed t u) (hev : s.rxev <+: t.rxev) :
    Overflowed s u := by
  obtain ⟨pre, hpre⟩ := hev
  obtain ⟨hstatus, hbuf, hmode, evs, hevs⟩ := h
  exact ⟨hstatus, hbuf, hmode, pre ++ evs, by rw [hevs, ← hpre, List.append_assoc s.rxev]⟩

/-- A chunk leaves the status or overflows the buffer (R105 to R107). -/
theorem rxChunk_status_eq_or_overflowed (bytes : List Byte) (s : State) :
    (rxChunk c bytes s).status = s.status ∨ Overflowed s (rxChunk c bytes s) := by
  induction bytes generalizing s with
  | nil => exact .inl rfl
  | cons b rest ih =>
    by_cases ho : s.status = .opened
    case neg => exact .inl (rxChunk_sameReceiveSide_of_not_opened c _ ho).status
    by_cases hfull : c.bufMax ≤ s.rxbuf.length
    · rw [rxChunk_cons_of_full c b rest ho hfull]
      exact .inr ⟨rfl, rfl, rfl, [], by simp⟩
    · have hroom := Nat.not_le.mp hfull
      have hev : s.rxev <+: (drain c (s.append b)).rxev := drain_rxev_prefix c (s.append b)
      have hstatus : (drain c (s.append b)).status = s.status := drain_status c (s.append b)
      rw [rxChunk_cons_of_ne_rxFatal c (rxByte_fst_of_room c b ho hroom), rxByteAnswered_of_room c b ho hroom]
      exact (ih _).imp (·.trans hstatus) (·.of_rxev_prefix hev)

end overflow

/-! ### Frames longer than the cap (R172) -/

/-- The first bytes of a frame at an empty buffer are held as far as they fit, the frame longer than the cap or
not (R110). -/
theorem rxChunk_encodeFrame_eq_holding (c : Cfg) {cmd : U16} {args : List I32} {s : State} {k : Nat}
    (ho : s.status = .opened) (hm : s.rxmode = .synchronized) (hempty : s.rxbuf = [])
    (hargs : args.length ≤ Config.maxArgs) (hcap : k ≤ c.bufMax) (hk : k < frameLen args.length) :
    rxChunk c (encodeFrame c cmd args) s =
      rxChunk c ((encodeFrame c cmd args).drop k) (s.holding ((encodeFrame c cmd args).take k)) := by
  have htake : ((encodeFrame c cmd args).take k).length ≤ k := List.length_take_le k _
  rw [← rxChunk_append_of_incomplete c _ _ ho hm ?room fun p hp => ?held, List.take_append_drop]
  case room =>
    rw [hempty, List.length_nil, Nat.zero_add]
    exact htake.trans hcap
  case held =>
    rw [hempty, List.nil_append, List.prefix_iff_eq_take.mp (hp.trans (List.take_prefix k _))]
    exact tryDecode_incomplete_of_take_encodeFrame c hargs ((hp.length_le.trans htake).trans_lt hk)

/-- Settles O14: the frame's first `BUF_MAX` bytes are held, and the byte behind them finds the buffer full. -/
theorem frameLongerThanTheCapOverflows : Obligations.FrameLongerThanTheCapOverflows := by
  intro c cmd args s ho hm hempty hargs hcap
  have hlen : (encodeFrame c cmd args).length = 14 + 4 * args.length := encodeFrame_length c cmd args
  obtain ⟨b, rest, hrest⟩ : ∃ b rest, (encodeFrame c cmd args).drop c.bufMax = b :: rest :=
    List.exists_cons_of_length_pos (by rw [List.length_drop, hlen]; omega)
  have hfull : c.bufMax ≤ (s.holding ((encodeFrame c cmd args).take c.bufMax)).rxbuf.length := by
    rw [State.holding_rxbuf, hempty, List.nil_append, List.length_take, hlen]
    omega
  rw [rxChunk_encodeFrame_eq_holding c ho hm hempty hargs le_rfl hcap, hrest,
    rxChunk_cons_of_full c b rest (s := s.holding _) ho hfull]
  exact ⟨rfl, rfl, rfl⟩

/-! ### What one instruction can do to the status (R14) -/

/-- An instruction leaves the status, or it is `RESET` or `CLOSE`, or the bytes it presents overflow the
buffer. -/
theorem exec_status_cases {i : Instr} {s t : State} (h : exec i s = .next t) :
    t.status = s.status ∨ (i = .reset ∧ t.status = .opened) ∨ (i = .close ∧ t.status = .closed) ∨
      Overflowed s t := by
  cases exec_receiveEffect h with
  | reset => exact .inr (.inl ⟨rfl, rfl⟩)
  | close =>
    by_cases ho : s.status = .opened
    · rw [closeConnection_of_opened ho]
      exact .inr (.inr (.inl ⟨rfl, rfl⟩))
    · exact .inl (congrArg State.status (closeConnection_of_not_opened ho))
  | received =>
    exact (rxChunk_status_eq_or_overflowed Config.cfg _ s).imp_right fun hover => .inr (.inr hover)
  | drain => exact .inl (drain_status _ s)
  | syncStep r =>
    rcases syncStep_cases Config.cfg s with ⟨_, e⟩ | ⟨f, len, _, _, _, e⟩ | ⟨k, _, _, e⟩ <;> rw [e] <;>
      exact .inl rfl
  | scanStep r => rcases scanStep_cases s with ⟨i, _, e⟩ | ⟨_, e⟩ <;> rw [e] <;> exact .inl rfl
  | untouched hs => exact .inl hs.status

/-- Settles O4: of the four cases of `exec_status_cases`, each new status leaves one. -/
theorem statusChangesOnlyByOverflowCloseAndReset : Obligations.StatusChangesOnlyByOverflowCloseAndReset := by
  intro i s t h
  rcases exec_status_cases h with hsame | ⟨rfl, hst⟩ | ⟨rfl, hst⟩ | ⟨hst, hbuf, hmode, hev⟩
  · rw [hsame]
    exact ⟨absurd, absurd, absurd⟩
  all_goals rw [hst]
  · exact ⟨nofun, nofun, fun _ _ => rfl⟩
  · exact ⟨nofun, fun _ _ => rfl, nofun⟩
  · exact ⟨fun _ _ => ⟨hbuf, hmode, hev⟩, nofun, nofun⟩

/-! ### Garbage while scanning (R115, R179) -/

theorem containsStart_of_infix {s t : List Byte} (hst : s <:+: t) (h : containsStart s) : containsStart t := by
  obtain ⟨pre, post, rfl⟩ := hst
  obtain ⟨j, hj⟩ := h
  refine ⟨pre.length + j, ?_⟩
  rw [List.append_assoc, List.drop_length_add_append, List.drop_append]
  exact hj.trans (List.prefix_append _ _)

/-- A scan that finds no `START` drops all but the last three bytes and waits (R115). -/
theorem drain_of_not_containsStart (c : Cfg) {s : State} (hm : s.rxmode = .scanning)
    (h : ¬ containsStart s.rxbuf) :
    drain c s = s.dropFront (s.rxbuf.length - min Config.scanKeep s.rxbuf.length) := by
  refine drain_of_wait c ?_
  rw [drainStep_of_scanning c hm, scanStep, findStart_eq_none_of_not_containsStart h]

/-- With at most three bytes held there is always room, and without `START` each byte leaves at most three held, so
a whole chunk of garbage is received and nothing is emitted (R179). -/
theorem rxChunk_of_garbage (c : Cfg) (hcap : 3 < c.bufMax) {bytes : List Byte} {s : State}
    (ho : s.status = .opened) (hm : s.rxmode = .scanning) (hlen : s.rxbuf.length ≤ 3)
    (hgarbage : ¬ containsStart (s.rxbuf ++ bytes)) :
    (rxChunk c bytes s).status = .opened ∧ (rxChunk c bytes s).rxmode = .scanning ∧
      (rxChunk c bytes s).rxev = s.rxev ∧ (rxChunk c bytes s).rxbuf.length ≤ 3 := by
  induction bytes generalizing s with
  | nil => exact ⟨ho, hm, rfl, hlen⟩
  | cons b rest ih =>
    have hroom : s.rxbuf.length < c.bufMax := by omega
    rw [List.append_cons] at hgarbage
    have hdrain := drain_of_not_containsStart c (s := s.append b) hm fun hstart =>
      hgarbage (containsStart_of_infix (List.prefix_append _ rest).isInfix hstart)
    rw [rxChunk_cons_of_ne_rxFatal c (rxByte_fst_of_room c b ho hroom), rxByteAnswered_of_room c b ho hroom,
      hdrain]
    refine ih ho hm ?_ fun hstart => hgarbage (containsStart_of_infix ?_ hstart)
    · simp only [State.answer_rxbuf, State.dropFront_rxbuf, List.length_drop, Config.scanKeep]
      omega
    · exact (List.suffix_append_self_iff.mpr (List.drop_suffix _ _)).isInfix

/-- Settles O15, by `rxChunk_of_garbage`: what a quiescent scanning instance holds is at most three bytes. -/
theorem garbageWithoutStartCodeIsSwallowed : Obligations.GarbageWithoutStartCodeIsSwallowed := by
  intro bytes s hq ho hm hgarbage
  obtain ⟨_, _, hscan⟩ := hq.1 ho
  have hcap : 14 ≤ Config.cfg.bufMax := openParametersMeetTheirRequirements.1
  exact ⟨_, rfl, rxChunk_of_garbage Config.cfg (by omega) ho hm (hscan hm).1 hgarbage⟩

end Sys2Proof.Machine
end
